-- ==== Sys2Proof/Word.lean ====
section
/-! DEFINITION. The byte and the byte sequence: the only words of this hardware.
Rule R9 of spec/00_scope.md: a byte is an unsigned 8-bit value, bit 0 the least significant;
`s[i..j)` and `++` on byte sequences are the list operations. -/

namespace Sys2Proof

/-- An unsigned 8-bit value (R9). -/
abbrev Byte := BitVec 8

/-- A finite byte sequence (R9): a chunk, the PendingBuffer, the working buffer, a payload. -/
abbrev Bytes := List Byte

end Sys2Proof
end

