-- ==== Sys2Proof/Config.lean ====
section
/-! DEFINITION. The configuration parameters of rule R7 (spec/00_scope.md), their defaults, the
parameters the source settles, and the model's one free value.
The check of rule R8 on them is `Config.ok` of Sys2Proof/WellFormed.lean. -/

namespace Sys2Proof

/-- The configuration parameters that rule R7 leaves to the instance.
They are fixed before the first invocation (R3, R23, R273): no step writes them.
The parameters the source settles (`MASK_LEN`, `MIN_LEN`, `NODE_ID_MAX`, `TIER_TABLE`) are definitions,
not fields. -/
structure Config where
  /-- `MAX_LEN`: the largest legal declared length, 16 to 255. -/
  maxLen : Nat
  /-- `FC_VERSION`: Version info. -/
  fcVersion : Byte
  /-- `FC_SEND_DATA`: Send-data result, both forms. -/
  fcSendData : Byte
  /-- `FC_MEMORY_GET_ID`: Memory/home identifier. -/
  fcMemoryGetId : Byte
  /-- `FC_GET_SUC_NODE_ID`: Successor-node id. -/
  fcGetSucNodeId : Byte
  /-- `FC_GET_INIT_DATA`: Network init data. -/
  fcGetInitData : Byte
  /-- `FC_GET_NODE_PROTOCOL_INFO`: Node protocol capability. -/
  fcGetNodeProtocolInfo : Byte
  /-- `FC_REQUEST_NODE_INFO`: Request-node-info result. -/
  fcRequestNodeInfo : Byte
  /-- `FC_APPLICATION_UPDATE`: Application update notice. -/
  fcApplicationUpdate : Byte
  /-- `FC_GET_ROUTING_INFO`: Routing info. -/
  fcGetRoutingInfo : Byte
  /-- `FC_APPLICATION_COMMAND`: Application command envelope. -/
  fcApplicationCommand : Byte
  /-- `INIT_HDR_LEN`: bytes of the fixed header before the init-data mask. -/
  initHdrLen : Nat
  /-- `NPI_LISTENING_BIT`: bit of capability byte 0. -/
  npiListeningBit : Nat
  /-- `NPI_TIER_LO`: lowest bit of the baud-rate tier field of capability byte 0. -/
  npiTierLo : Nat
  /-- `NPI_TIER_W`: width of the tier field. -/
  npiTierW : Nat
  /-- `NPI_VER_LO`: lowest bit of the version sub-field of capability byte 0. -/
  npiVerLo : Nat
  /-- `NPI_VER_W`: width of the version sub-field. -/
  npiVerW : Nat
  /-- `NPI_ROUTING_BIT`: bit of capability byte 1. -/
  npiRoutingBit : Nat
  /-- `NPI_BEAMING_BIT`: bit of capability byte 1. -/
  npiBeamingBit : Nat
  /-- `NPI_SECURITY_BIT`: bit of capability byte 1. -/
  npiSecurityBit : Nat
  /-- `APPCMD_HAS_LEN`: whether a command-length byte follows the node id. -/
  appcmdHasLen : Bool
  deriving DecidableEq, Repr

/-- The defaults of rule R7. `FC_VERSION` and `FC_SEND_DATA` are the source's; the other function codes,
`INIT_HDR_LEN` and the flag positions are the spec's general-knowledge defaults (G1 to G12). -/
def Config.default : Config where
  maxLen := 255
  fcVersion := 0x15
  fcSendData := 0x13
  fcMemoryGetId := 0x20
  fcGetSucNodeId := 0x56
  fcGetInitData := 0x02
  fcGetNodeProtocolInfo := 0x41
  fcRequestNodeInfo := 0x60
  fcApplicationUpdate := 0x49
  fcGetRoutingInfo := 0x80
  fcApplicationCommand := 0x04
  initHdrLen := 3
  npiListeningBit := 7
  npiTierLo := 4
  npiTierW := 2
  npiVerLo := 0
  npiVerW := 3
  npiRoutingBit := 3
  npiBeamingBit := 4
  npiSecurityBit := 0
  appcmdHasLen := false

/-- `MASK_LEN` (R7): bytes in a node mask. -/
def maskLen : Nat := 29

/-- `NODE_ID_MAX` (R7): the largest node id a mask can name. -/
def nodeIdMax : Nat := 8 * maskLen

/-- `MIN_LEN` (R7): the smallest legal declared length. -/
def minLen : Nat := 3

/-- `RETAIN_MAX` (R7): the largest PendingBuffer between invocations. -/
def Config.retainMax (c : Config) : Nat := 1 + c.maxLen

/-- The Response-direction function codes, in the order of R8(b). -/
def Config.responseCodes (c : Config) : List Byte :=
  [c.fcVersion, c.fcMemoryGetId, c.fcGetSucNodeId, c.fcGetInitData, c.fcGetNodeProtocolInfo,
   c.fcSendData, c.fcRequestNodeInfo, c.fcGetRoutingInfo]

/-- The Request-direction function codes, in the order of R8(c). -/
def Config.requestCodes (c : Config) : List Byte :=
  [c.fcSendData, c.fcApplicationUpdate, c.fcApplicationCommand]

/-- FREE VALUE (DESIGN CHOICE, notes/assumptions/7.md). The `n` and `n_min` fields of a
MALFORMED_PAYLOAD diagnostic are bytes (R241). Rule R8 puts no bound on `INIT_HDR_LEN`, so
`n_min = INIT_HDR_LEN + MASK_LEN` can exceed 255, and the spec does not state the byte then.
It is this constant, applied to the count. It has no body: nothing can be proved of its value. -/
opaque Config.wideCountByte : Nat → Byte

end Sys2Proof
end

