-- ==== Sys2Proof/Syntax.lean ====
section
/-! DEFINITION. The instruction type: one constructor for each row of spec/opcode_table.json.
Rule R2: the instruction set of this block is the wire format. Rule R67 gives the first-level map
(the byte at a scan position) and rule R68 the second-level map (the dispatch key of a data frame
whose checksum is valid). -/

namespace Sys2Proof

/-- The two levels of the opcode map: `scan` reads one byte at a scan position (R67), `key` reads the
two bytes (DIRECTION, FUNCTION_CODE) of a frame the assembler has accepted (R65, R68). -/
inductive FetchLevel where
  | scan
  | key
  deriving DecidableEq, Repr

/-- One constructor per row of spec/opcode_table.json. The fields are the fields of the row's own
word; a data frame's payload is an operand in the frame, not a field of the key word. -/
inductive Instr where
  /-- ACK, 0x06 at a scan position (R114). -/
  | ack
  /-- NAK, 0x15 at a scan position (R115). -/
  | nak
  /-- CAN, 0x18 at a scan position (R116). -/
  | can
  /-- SOF, 0x01 at a scan position (R117). -/
  | sof
  /-- NOISE, any other byte at a scan position (R112). -/
  | noise (byte : Byte)
  /-- VERSION, key (RES, FC_VERSION) (R150). -/
  | version
  /-- MEMORY_ID, key (RES, FC_MEMORY_GET_ID) (R151). -/
  | memoryId
  /-- SUC_NODE_ID, key (RES, FC_GET_SUC_NODE_ID) (R152). -/
  | sucNodeId
  /-- INIT_DATA, key (RES, FC_GET_INIT_DATA) (R153). -/
  | initData
  /-- NODE_PROTOCOL_INFO, key (RES, FC_GET_NODE_PROTOCOL_INFO) (R154). -/
  | nodeProtocolInfo
  /-- SEND_DATA_RES, key (RES, FC_SEND_DATA) (R156). -/
  | sendDataRes
  /-- SEND_DATA_REQ, key (REQ, FC_SEND_DATA) (R157). -/
  | sendDataReq
  /-- REQUEST_NODE_INFO, key (RES, FC_REQUEST_NODE_INFO) (R158). -/
  | requestNodeInfo
  /-- APPLICATION_UPDATE, key (REQ, FC_APPLICATION_UPDATE) (R159). -/
  | applicationUpdate
  /-- ROUTING_INFO, key (RES, FC_GET_ROUTING_INFO) (R160). -/
  | routingInfo
  /-- APPLICATION_COMMAND, key (REQ, FC_APPLICATION_COMMAND) (R161). -/
  | applicationCommand
  /-- OPAQUE, any key that is not in R68 (R162). -/
  | opaqueKey (direction functionCode : Byte)
  deriving DecidableEq, Repr

/-- The level of the opcode map at which an instruction stands. -/
def Instr.level : Instr → FetchLevel
  | .ack => .scan
  | .nak => .scan
  | .can => .scan
  | .sof => .scan
  | .noise _ => .scan
  | .version => .key
  | .memoryId => .key
  | .sucNodeId => .key
  | .initData => .key
  | .nodeProtocolInfo => .key
  | .sendDataRes => .key
  | .sendDataReq => .key
  | .requestNodeInfo => .key
  | .applicationUpdate => .key
  | .routingInfo => .key
  | .applicationCommand => .key
  | .opaqueKey _ _ => .key

end Sys2Proof
end

