-- ==== Sys2Proof/WellFormed.lean ====
section
/-! DEFINITION. The checks: a configuration satisfies rule R8, and an instruction is one that the
opcode map can yield. Both are Bools. -/

namespace Sys2Proof

/-- R8(a): `MIN_LEN <= 16 <= MAX_LEN <= 255`. -/
def Config.lengthsOk (c : Config) : Bool :=
  decide (minLen ≤ 16) && decide (16 ≤ c.maxLen) && decide (c.maxLen ≤ 255)

/-- R8(b): the Response-direction codes are pairwise distinct. -/
def Config.responseCodesOk (c : Config) : Bool := decide c.responseCodes.Nodup

/-- R8(c): the Request-direction codes are pairwise distinct. -/
def Config.requestCodesOk (c : Config) : Bool := decide c.requestCodes.Nodup

/-- Bit `i` lies outside the field of width `w` at `lo`. -/
def bitOutside (i lo w : Nat) : Bool := decide (i < lo) || decide (lo + w ≤ i)

/-- R8(d): the three byte-0 fields do not overlap, and the three byte-1 bits are distinct. -/
def Config.capabilityFieldsOk (c : Config) : Bool :=
  bitOutside c.npiListeningBit c.npiTierLo c.npiTierW &&
  bitOutside c.npiListeningBit c.npiVerLo c.npiVerW &&
  (decide (c.npiTierLo + c.npiTierW ≤ c.npiVerLo) || decide (c.npiVerLo + c.npiVerW ≤ c.npiTierLo)) &&
  decide [c.npiRoutingBit, c.npiBeamingBit, c.npiSecurityBit].Nodup

/-- R8(e): each width is 1 to 8 and each field lies within bits 7 to 0. A flag is a field of one bit,
so it too lies within bits 7 to 0 (R145: `0 <= i <= 7`). -/
def Config.capabilityWidthsOk (c : Config) : Bool :=
  decide (1 ≤ c.npiTierW) && decide (c.npiTierW ≤ 8) && decide (1 ≤ c.npiVerW) && decide (c.npiVerW ≤ 8) &&
  decide (c.npiTierLo + c.npiTierW ≤ 8) && decide (c.npiVerLo + c.npiVerW ≤ 8) &&
  decide (c.npiListeningBit ≤ 7) && decide (c.npiRoutingBit ≤ 7) && decide (c.npiBeamingBit ≤ 7) &&
  decide (c.npiSecurityBit ≤ 7)

/-- Rule R8 as one check. A configuration that breaks it is refused: the model gives it no meaning. -/
def Config.ok (c : Config) : Bool :=
  c.lengthsOk && c.responseCodesOk && c.requestCodesOk && c.capabilityFieldsOk && c.capabilityWidthsOk

/-- R110: the marker set. -/
def isMarker (b : Byte) : Bool := b == 0x06 || b == 0x15 || b == 0x18 || b == 0x01

/-- R68: the key is that of a message row. -/
def Config.knownKey (c : Config) (direction functionCode : Byte) : Bool :=
  (direction == 0x01 && c.responseCodes.contains functionCode) ||
  (direction == 0x00 && c.requestCodes.contains functionCode)

/-- An instruction is well formed when the opcode map yields it: a noise byte is no marker (R67, R112),
an opaque key is no message key (R68, R162); every other row has no field. -/
def Instr.wf (c : Config) : Instr → Bool
  | .ack => true
  | .nak => true
  | .can => true
  | .sof => true
  | .noise b => !isMarker b
  | .version => true
  | .memoryId => true
  | .sucNodeId => true
  | .initData => true
  | .nodeProtocolInfo => true
  | .sendDataRes => true
  | .sendDataReq => true
  | .requestNodeInfo => true
  | .applicationUpdate => true
  | .routingInfo => true
  | .applicationCommand => true
  | .opaqueKey d f => !c.knownKey d f

end Sys2Proof
end

