-- ==== Sys2Proof/Decode.lean ====
section
/-! DEFINITION. The decoder of both levels of the opcode map (rules R67 and R68 of
spec/30_encoding.md), total on any bytes, and after it the encoder, written from the same rules. -/

namespace Sys2Proof

/-- Why the decoder reads no instruction. Rule R70: every byte pattern has a defined outcome, so the
only rejections are those of bytes that are not there. -/
inductive DecodeError where
  /-- No byte at the scan position: `scan` answers `none` (R111). -/
  | noByte
  /-- Fewer than the two bytes of a dispatch key. -/
  | shortKey
  deriving DecidableEq, Repr

/-- The kinds of marker (R110, R111). -/
inductive Marker where
  | ack
  | nak
  | can
  | sof
  deriving DecidableEq, Repr

/-- `kindOf` of rule R111 on the marker set of rule R110; `none` is a noise byte. -/
def markerOf (b : Byte) : Option Marker :=
  if b = 0x06 then some .ack
  else if b = 0x15 then some .nak
  else if b = 0x18 then some .can
  else if b = 0x01 then some .sof
  else none

/-- R67: the first-level map, the byte at a scan position. -/
def decodeMarker (b : Byte) : Instr :=
  match markerOf b with
  | some .ack => .ack
  | some .nak => .nak
  | some .can => .can
  | some .sof => .sof
  | none => .noise b

/-- The direction byte `REQ` (R11). -/
def dirRequest : Byte := 0x00

/-- The direction byte `RES` (R11). -/
def dirResponse : Byte := 0x01

/-- A row of the second-level map (R68). -/
structure KeyRow where
  direction : Byte
  functionCode : Byte
  instr : Instr
  deriving DecidableEq, Repr

/-- R68: the message rows, in the spec's order. -/
def keyRows (c : Config) : List KeyRow :=
  [ ⟨dirResponse, c.fcVersion, .version⟩,
    ⟨dirResponse, c.fcMemoryGetId, .memoryId⟩,
    ⟨dirResponse, c.fcGetSucNodeId, .sucNodeId⟩,
    ⟨dirResponse, c.fcGetInitData, .initData⟩,
    ⟨dirResponse, c.fcGetNodeProtocolInfo, .nodeProtocolInfo⟩,
    ⟨dirResponse, c.fcSendData, .sendDataRes⟩,
    ⟨dirRequest, c.fcSendData, .sendDataReq⟩,
    ⟨dirResponse, c.fcRequestNodeInfo, .requestNodeInfo⟩,
    ⟨dirRequest, c.fcApplicationUpdate, .applicationUpdate⟩,
    ⟨dirResponse, c.fcGetRoutingInfo, .routingInfo⟩,
    ⟨dirRequest, c.fcApplicationCommand, .applicationCommand⟩ ]

/-- R141: the key is matched exactly, on both bytes, against the rows of R68; no row is `Opaque` (R162). -/
def decodeKey (c : Config) (direction functionCode : Byte) : Instr :=
  match (keyRows c).find? (fun r => r.direction == direction && r.functionCode == functionCode) with
  | some r => r.instr
  | none => .opaqueKey direction functionCode

/-- The decoder: the instruction at the head of the bytes, and the bytes after its own word. A scan
position reads one byte (R67); a dispatch key reads two, DIRECTION before FUNCTION_CODE (R62, R65). -/
def decode (c : Config) : FetchLevel → Bytes → Except DecodeError (Instr × Bytes)
  | .scan, b :: rest => .ok (decodeMarker b, rest)
  | .scan, [] => .error .noByte
  | .key, d :: f :: rest => .ok (decodeKey c d f, rest)
  | .key, [_] => .error .shortKey
  | .key, [] => .error .shortKey

/-- The encoder: the bytes of an instruction's own word, from the opcode map (R61, R62, R67, R68). -/
def encode (c : Config) : Instr → Bytes
  | .ack => [0x06]
  | .nak => [0x15]
  | .can => [0x18]
  | .sof => [0x01]
  | .noise b => [b]
  | .version => [dirResponse, c.fcVersion]
  | .memoryId => [dirResponse, c.fcMemoryGetId]
  | .sucNodeId => [dirResponse, c.fcGetSucNodeId]
  | .initData => [dirResponse, c.fcGetInitData]
  | .nodeProtocolInfo => [dirResponse, c.fcGetNodeProtocolInfo]
  | .sendDataRes => [dirResponse, c.fcSendData]
  | .sendDataReq => [dirRequest, c.fcSendData]
  | .requestNodeInfo => [dirResponse, c.fcRequestNodeInfo]
  | .applicationUpdate => [dirRequest, c.fcApplicationUpdate]
  | .routingInfo => [dirResponse, c.fcGetRoutingInfo]
  | .applicationCommand => [dirRequest, c.fcApplicationCommand]
  | .opaqueKey d f => [d, f]

/-- The bytes of a table word in wire order. An 8-bit row is the byte itself; a 16-bit row is the key
`DIRECTION << 8 | FUNCTION_CODE` (R65), whose DIRECTION byte comes first on the wire (R62). -/
def tableWordBytes (nbits w : Nat) : Option (FetchLevel × Bytes) :=
  if nbits = 8 then some (.scan, [BitVec.ofNat 8 w])
  else if nbits = 16 then some (.key, [BitVec.ofNat 8 (w / 256), BitVec.ofNat 8 w])
  else none

/-- The instruction the decoder reads from a word of spec/opcode_table.json, under the defaults of R7
(the table lists the default function codes). -/
def decodeTableWord (nbits w : Nat) : Option Instr :=
  match tableWordBytes nbits w with
  | none => none
  | some (level, bytes) =>
    match decode Config.default level bytes with
    | .ok (i, _) => some i
    | .error _ => none

end Sys2Proof
end

