-- ==== Sys2Proof/Machine/State.lean ====
section
/-! DEFINITION. The state as plain data, the item and message types of its output (rules R28, R29,
R120, R241), the reasons a step can stop, and the machine after reset (R34, R270). -/

namespace Sys2Proof.Machine

/-- `CtlKind` (R28). -/
inductive CtlKind where
  | ack
  | nak
  | can
  deriving DecidableEq, Repr

/-- `DataFrame` (R120, R127): the direction is the raw byte. -/
structure DataFrame where
  direction : Byte
  functionCode : Byte
  rawPayload : Bytes
  declaredLength : Byte
  deriving DecidableEq, Repr

/-- The fields of a Node protocol capability message (R154). -/
structure NodeProtocolInfo where
  cap0 : Byte
  cap1 : Byte
  listening : Bool
  tier : Nat
  baud : Option Nat
  version : Nat
  routing : Bool
  beaming : Bool
  security : Bool
  basic : Byte
  generic : Byte
  specific : Byte
  deriving DecidableEq, Repr

/-- The fields of a Send-data result (R156, R157). A `none` field holds no value (R10). -/
structure SendData where
  hasReturnValue : Bool
  returnValue : Option Byte
  hasCallback : Bool
  callbackId : Option Byte
  deliveryStatus : Option Byte
  deriving DecidableEq, Repr

/-- `DecodedMessage` (R29), the fields of each constructor from its rule (R150 to R162). -/
inductive DecodedMessage where
  | version (text : Bytes) (libType : Byte)
  | memoryId (homeId : Int) (nodeId : Byte)
  | sucNodeId (nodeId : Byte) (assigned : Bool)
  | initData (header : Bytes) (nodes : List Nat)
  | nodeProtocolInfo (info : NodeProtocolInfo)
  | sendData (result : SendData)
  | requestNodeInfo (raw : Byte) (success : Bool)
  | applicationUpdate (status nodeId : Byte) (info : Bytes)
  | routingInfo (nodes : List Nat)
  | applicationCommand (status nodeId : Byte) (cmdLen : Option Byte) (ccId : Byte) (ccBytes : Bytes)
  | opaqueFrame (direction functionCode : Byte) (payload : Bytes)
  deriving DecidableEq, Repr

/-- `DiagInfo` (R241). -/
inductive DiagInfo where
  | checksumMismatch (len declared computed : Byte)
  | badLength (len : Byte)
  | malformedPayload (direction functionCode n nMin : Byte)
  deriving DecidableEq, Repr

/-- `Item` (R28). -/
inductive Item where
  | ctl (kind : CtlKind)
  | msg (message : DecodedMessage)
  | diag (code : Byte) (info : DiagInfo)
  deriving DecidableEq, Repr

/-- The environment operations: exactly two (R252). -/
inductive Call where
  /-- One invocation with one chunk (R26, R200). -/
  | decode (chunk : Bytes)
  /-- The reset request (R30, R270). -/
  | reset
  deriving DecidableEq, Repr

/-- What exists only during one invocation (R24, R25, R27, R33). -/
structure Invocation where
  /-- `W`, the working buffer (R24); never written after the invocation's start. -/
  w : Bytes
  /-- `cur`, the cursor (R25). -/
  cur : Nat
  /-- `out`, the items emitted so far (R27, R201). -/
  out : List Item
  /-- The frame the assembler has accepted and the registry has not yet consumed (R126). -/
  frame : Option DataFrame
  deriving DecidableEq, Repr

/-- The machine's state. `pb` and, during an invocation, `inv` are what the spec names (R20 to R27, R33, R34).
`cfg`, `calls` and `returned` are the model's own: the fixed configuration (R23), the caller's pending
operations and the item sequences already returned to the caller (notes/assumptions 2, 3, 4). -/
structure State where
  cfg : Config
  /-- `PB`, the PendingBuffer (R21). -/
  pb : Bytes
  inv : Option Invocation
  calls : List Call
  returned : List (List Item)
  deriving DecidableEq, Repr

/-- The reasons the machine stops with a fault. No step raises one (R240). -/
inductive Fault where
  /-- A meaning was asked for with no invocation in progress: `W`, `cur` and `out` do not exist then
  (R33, R34). Raised by every meaning; never by `step`. Safe. -/
  | noInvocation
  /-- A payload decoder was asked for with no accepted frame: the frame is not retained (R126).
  Raised by every key-level meaning; never by `step`. Safe. -/
  | noFrame
  /-- A consumer read a field that holds `none` (R156, U7): the model returns no value for it.
  Raised by the accessors of `SendData`; never by `step`. Safe. -/
  | absentField
  deriving DecidableEq, Repr

/-- The reasons the machine refuses. -/
inductive Refusal where
  /-- An instruction that has no meaning yet, by its mnemonic. Raised by no arm of `exec`. Safe. -/
  | notModelled (mnemonic : String)
  /-- A `decode` or `reset` while an invocation is in progress (R50, R274, U1). Raised by the
  environment operations; never by `step`, which takes a call only between invocations. Safe. -/
  | overlappingCall
  /-- The configuration breaks rule R8 (U2). Raised by `State.boot` and by `step`. Safe. -/
  | badConfiguration
  /-- A change of the configuration after boot (R273, U3). Raised by `State.configure`. Safe. -/
  | configurationFixed
  deriving DecidableEq, Repr

/-- The machine after reset: `PB = []` (R34, R270), no invocation (R34). The configuration is the
default of R7; nothing has been asked of the block and nothing returned (notes/assumptions 2, 3, 4). -/
def State.reset : State where
  cfg := Config.default
  pb := []
  inv := none
  calls := []
  returned := []

end Sys2Proof.Machine
end

