-- ==== Sys2Proof/Machine/Ops.lean ====
section
/-! DEFINITION. The named operations: reads of the working buffer, the pseudocode primitives of rule
R10 (emit, raise Diag, the cursor, the PendingBuffer), the start and end of an invocation, the
environment operations, and the fetch. The block has no trap entry and no trap return (R248, R249);
the one operation shared by every error is `Invocation.raise`. -/

namespace Sys2Proof.Machine

/-- What an operation on the state answers. -/
abbrev Answer := Host.Outcome State Fault Refusal

/-- `W[i]` (R10): the byte at index `i`; an index past the end holds no byte (R40). -/
def readByte (w : Bytes) (i : Nat) : Option Byte := w[i]?

/-- `MemRead(a, n)` (R10): the bytes `W[a..a+n)`, read only where `a + n <= |W|`. -/
def memRead (w : Bytes) (a n : Nat) : Bytes := (w.drop a).take n

/-- The diagnostic codes of rule R241. -/
def DiagInfo.code : DiagInfo → Byte
  | .checksumMismatch _ _ _ => 0x01
  | .badLength _ => 0x02
  | .malformedPayload _ _ _ _ => 0x03

/-- The item of a diagnostic: its code beside its info (R28, R241). -/
def diagItem (d : DiagInfo) : Item := .diag d.code d

/-- Whether an item is a diagnostic. -/
def Item.isDiag : Item → Bool
  | .diag _ _ => true
  | .ctl _ => false
  | .msg _ => false

/-- The source's own sequence: the items without the diagnostics (R27). -/
def withoutDiagnostics (items : List Item) : List Item := items.filter (fun x => !x.isDiag)

/-- A count as the byte a diagnostic carries (R241). Counts above 255 have no stated byte: the free
value of Config. -/
def countByte (k : Nat) : Byte := if k < 256 then BitVec.ofNat 8 k else Config.wideCountByte k

/-- `emit(item)` (R10): append to the output of the invocation. -/
def Invocation.emit (v : Invocation) (x : Item) : Invocation := { v with out := v.out ++ [x] }

/-- `raise Diag(code, info)` (R10): emits, and does not stop the invocation (R240). -/
def Invocation.raise (v : Invocation) (d : DiagInfo) : Invocation := v.emit (diagItem d)

/-- `cur <- cur + n` (R25): the cursor only increases. -/
def Invocation.consume (v : Invocation) (n : Nat) : Invocation := { v with cur := v.cur + n }

/-- The accepted frame goes to the registry (R126, R140). -/
def Invocation.hand (v : Invocation) (f : DataFrame) : Invocation := { v with frame := some f }

/-- The registry is done with the frame, which is not retained (R126). -/
def Invocation.release (v : Invocation) : Invocation := { v with frame := none }

/-- The state with the invocation's new values; `pb` is not written during an invocation (R40). -/
def State.setInv (s : State) (v : Invocation) : State := { s with inv := some v }

/-- The start of an invocation (R201). -/
def startInvocation (pb chunk : Bytes) : Invocation where
  w := pb ++ chunk
  cur := 0
  out := []
  frame := none

/-- The end of an invocation (R207): `PB` is written once, the items are returned in emission order,
and `W`, `cur` and `out` cease to exist (R33). -/
def State.finish (s : State) (v : Invocation) (pb : Bytes) : State :=
  { s with pb := pb, inv := none, returned := s.returned ++ [v.out] }

/-- A meaning that acts on the invocation in progress. -/
def State.withInvocation (s : State) (k : Invocation → Answer) : Answer :=
  match s.inv with
  | none => .fault .noInvocation
  | some v => k v

/-! ### The mode and the environment operations -/

/-- The orchestrator's state (R22). -/
inductive Mode where
  | idle
  | awaitingMore
  deriving DecidableEq, Repr

/-- `mode(PB)` (R22): derived, not stored. -/
def modeOf : Bytes → Mode
  | [] => .idle
  | _ :: _ => .awaitingMore

/-- The mode of a state (R22). -/
def State.mode (s : State) : Mode := modeOf s.pb

/-- `decode(chunk)` (R200, R201): starts an invocation; one that overlaps another is refused (R274). -/
def State.invoke (s : State) (chunk : Bytes) : Answer :=
  match s.inv with
  | none => .next (s.setInv (startInvocation s.pb chunk))
  | some _ => .refused .overlappingCall

/-- `reset` (R270): every state element takes its reset value, no item is emitted, and a partial frame
is lost without a diagnostic; one that overlaps an invocation is refused (R274). -/
def State.resetSession (s : State) : Answer :=
  match s.inv with
  | none => .next { s with pb := [] }
  | some _ => .refused .overlappingCall

/-- The environment operations are exactly `decode` and `reset` (R252). -/
def State.perform (s : State) : Call → Answer
  | .decode chunk => s.invoke chunk
  | .reset => s.resetSession

/-- Boot (R273): the configuration is fixed, then reset. One that breaks R8 is refused. -/
def State.boot (c : Config) : Answer :=
  if c.ok then .next { State.reset with cfg := c } else .refused .badConfiguration

/-- A request to change the configuration of a booted machine: it is fixed (R273, U3). -/
def State.configure (s : State) (c : Config) : Answer :=
  if c = s.cfg then .next s else .refused .configurationFixed

/-! ### Reading a `SendData` item -/

/-- A read of an optional field: one that is `none` holds no value, and the read faults (R156, U7). -/
def readField : Option Byte → Host.Outcome Byte Fault Refusal
  | some b => .next b
  | none => .fault .absentField

/-- A consumer's read of `returnValue`. -/
def SendData.readReturnValue (r : SendData) : Host.Outcome Byte Fault Refusal := readField r.returnValue

/-- A consumer's read of `callbackId`. -/
def SendData.readCallbackId (r : SendData) : Host.Outcome Byte Fault Refusal := readField r.callbackId

/-- A consumer's read of `deliveryStatus`. -/
def SendData.readDeliveryStatus (r : SendData) : Host.Outcome Byte Fault Refusal := readField r.deliveryStatus

/-! ### Fetch -/

/-- The level of the opcode map the next instruction stands at: a frame the assembler has accepted is
dispatched on its key (R140), otherwise the loop head scans (R202). -/
def Invocation.level (v : Invocation) : FetchLevel :=
  match v.frame with
  | none => .scan
  | some _ => .key

/-- The bytes the next instruction is read from: `W` from the cursor (R202), or the frame's key (R141). -/
def Invocation.fetchBytes (v : Invocation) : Bytes :=
  match v.frame with
  | none => v.w.drop v.cur
  | some f => [f.direction, f.functionCode]

/-- The instruction the invocation comes to next; `none` at the end of `W` (R203). -/
def Invocation.nextInstr (c : Config) (v : Invocation) : Option Instr :=
  match decode c v.level v.fetchBytes with
  | .ok (i, _) => some i
  | .error _ => none

end Sys2Proof.Machine
end

