-- ==== Sys2Proof/Machine/Checksum.lean ====
section
/-! DEFINITION. The Checksum Unit (spec/40_checksum.md): a pure function with no state. -/

namespace Sys2Proof.Machine

/-- `compute(s)` (R100): the XOR fold seeded with 0xFF. -/
def compute (s : Bytes) : Byte := s.foldl (fun a b => a ^^^ b) 0xFF

/-- `validate(s, c)` (R101). -/
def validate (s : Bytes) (c : Byte) : Bool := compute s == c

end Sys2Proof.Machine
end

