-- ==== Sys2Proof/Machine/Assembler.lean ====
section
/-! DEFINITION. The Data Frame Assembler (spec/42_assembler.md) and the meaning of SOF. -/

namespace Sys2Proof.Machine

/-- The outcome type of rule R120. -/
inductive Assembly where
  | incomplete
  | badLength (len : Byte)
  | checksumBad (len declared computed : Byte)
  | ok (f : DataFrame)
  deriving DecidableEq, Repr

/-- The length is legal (R63): `MIN_LEN <= L <= MAX_LEN`. -/
def lenLegal (c : Config) (len : Byte) : Bool := decide (minLen ≤ len.toNat) && decide (len.toNat ≤ c.maxLen)

/-- Field extraction and the checksum check of a complete frame of legal length (R124, R125, R126).
A complete frame holds every byte read here; the last case is never met on one. -/
def judgeComplete (w : Bytes) (s : Nat) (len : Byte) : Assembly :=
  match readByte w (s + 2), readByte w (s + 3), readByte w (s + 1 + len.toNat) with
  | some dir, some fc, some cks =>
    if validate (memRead w (s + 1) len.toNat) cks then
      .ok { direction := dir, functionCode := fc, rawPayload := memRead w (s + 4) (len.toNat - 3), declaredLength := len }
    else .checksumBad len cks (compute (memRead w (s + 1) len.toNat))
  | _, _, _ => .incomplete

/-- `assemble(W, s)` (R128), the checks in the order of R246: length, completeness, checksum. -/
def assemble (c : Config) (w : Bytes) (s : Nat) : Assembly :=
  match readByte w (s + 1) with
  | none => .incomplete
  | some len =>
    if !lenLegal c len then .badLength len
    else if w.length - s < 2 + len.toNat then .incomplete
    else judgeComplete w s len

/-- SOF (R117): the assembler judges the frame at the cursor, and the orchestrator acts on the outcome
(R205). `Ok` hands the frame to the registry; its bytes are consumed there, with its item. -/
def execSof (s : State) : Answer :=
  s.withInvocation fun v =>
    match assemble s.cfg v.w v.cur with
    | .incomplete => .next (s.finish v (v.w.drop v.cur))
    | .badLength len => .next (s.setInv ((v.raise (.badLength len)).consume 1))
    | .checksumBad len declared computed =>
      .next (s.setInv ((v.raise (.checksumMismatch len declared computed)).consume (2 + len.toNat)))
    | .ok f => .next (s.setInv (v.hand f))

end Sys2Proof.Machine
end

