-- ==== Sys2Proof/Machine/Control.lean ====
section
/-! DEFINITION. The Frame Boundary Scanner and the Control Frame Recognizer
(spec/41_scanner_control.md): `scan`, and the meanings of ACK, NAK, CAN and NOISE. -/

namespace Sys2Proof.Machine

/-- The first marker of a byte sequence whose first byte stands at index `i` (R111). -/
def scanFrom : Bytes → Nat → Option (Nat × Marker)
  | [], _ => none
  | b :: rest, i =>
    match markerOf b with
    | some k => some (i, k)
    | none => scanFrom rest (i + 1)

/-- `scan(W, start)` (R111). -/
def scan (w : Bytes) (start : Nat) : Option (Nat × Marker) := scanFrom (w.drop start) start

/-- A control frame (R204): `emit(CTL(k)); cur <- i + 1`, with `i` the index of its byte. -/
def execControl (k : CtlKind) (s : State) : Answer :=
  s.withInvocation fun v => .next (s.setInv ((v.emit (.ctl k)).consume 1))

/-- ACK (R114). -/
def execAck (s : State) : Answer := execControl .ack s

/-- NAK (R115). -/
def execNak (s : State) : Answer := execControl .nak s

/-- CAN (R116). -/
def execCan (s : State) : Answer := execControl .can s

/-- NOISE (R112): the byte, whatever its value, is consumed; no item and no diagnostic. -/
def execNoise (_byte : Byte) (s : State) : Answer :=
  s.withInvocation fun v => .next (s.setInv (v.consume 1))

end Sys2Proof.Machine
end

