-- ==== Sys2Proof/Machine/Operands.lean ====
section
/-! DEFINITION. Operand assembly (rule R69): the big-endian number, the signed 32-bit integer, and the
node mask of rule R144. A byte is taken as it is; a byte sequence is a slice. -/

namespace Sys2Proof.Machine

/-- `be_N(s)` (R10): the natural number whose big-endian base-256 digits are the bytes of `s`. -/
def beNat (s : Bytes) : Nat := s.foldl (fun a b => a * 256 + b.toNat) 0

/-- The two's-complement reading of a 32-bit natural (R69, R151). -/
def signed32 (v : Nat) : Int := if v < 2 ^ 31 then (v : Int) else (v : Int) - 2 ^ 32

/-- `flag(b, i)` (R145). -/
def flag (b : Byte) (i : Nat) : Bool := ((b >>> i) &&& 1) == 1

/-- `field(b, lo, w)` (R145), a natural. -/
def field (b : Byte) (lo w : Nat) : Nat := (b.toNat >>> lo) &&& (2 ^ w - 1)

/-- The node ids byte `j` of a mask names, ascending (R144). -/
def nodesOfByte (b : Byte) (j : Nat) : List Nat :=
  ((List.range 8).filter (fun i => flag b i)).map (fun i => 8 * j + i + 1)

/-- The node ids of the mask bytes `m`, the first of which is byte `j` (R144): by byte, then by bit. -/
def nodesFrom : Nat → Bytes → List Nat
  | _, [] => []
  | j, b :: m => nodesOfByte b j ++ nodesFrom (j + 1) m

/-- `nodesOf(m)` (R144). -/
def nodesOf (m : Bytes) : List Nat := nodesFrom 0 m

end Sys2Proof.Machine
end

