-- ==== Sys2Proof/Machine/Flags.lean ====
section
/-! DEFINITION. The block has no status flags (R31). What the spec calls flags are fields of a message:
the capability fields of rule R154, read with the bit helpers of R145, and the tier table of R155. -/

namespace Sys2Proof.Machine

/-- `TIER_TABLE` (R155): `none` means the block reports no rate for the tier. -/
def tierTable : Nat → Option Nat
  | 0 => some 9600
  | 1 => some 40000
  | _ + 2 => none

/-- The Node protocol capability fields of capability bytes `b0`, `b1` and the three device-class codes
(R154). `version` is the raw field: no offset is added. -/
def capabilities (c : Config) (b0 b1 basic generic specific : Byte) : NodeProtocolInfo where
  cap0 := b0
  cap1 := b1
  listening := flag b0 c.npiListeningBit
  tier := field b0 c.npiTierLo c.npiTierW
  baud := tierTable (field b0 c.npiTierLo c.npiTierW)
  version := field b0 c.npiVerLo c.npiVerW
  routing := flag b1 c.npiRoutingBit
  beaming := flag b1 c.npiBeamingBit
  security := flag b1 c.npiSecurityBit
  basic := basic
  generic := generic
  specific := specific

/-- The Send-data fields of the response form (R156). -/
def sendDataResponse (returnValue : Byte) : SendData where
  hasReturnValue := true
  returnValue := some returnValue
  hasCallback := false
  callbackId := none
  deliveryStatus := none

/-- The Send-data fields of the request (callback) form (R157). -/
def sendDataCallback (callbackId deliveryStatus : Byte) : SendData where
  hasReturnValue := false
  returnValue := none
  hasCallback := true
  callbackId := some callbackId
  deliveryStatus := some deliveryStatus

end Sys2Proof.Machine
end

