-- ==== Sys2Proof/Machine/Payload.lean ====
section
/-! DEFINITION. The Payload Decoder Registry (spec/43_payload_decoders.md): the decoding rule of each
message, and the meanings of the key-level instructions. A rule whose payload is shorter than its
`n_min` answers `malformed n_min` before any read (R142); bytes it does not name are ignored (R143). -/

namespace Sys2Proof.Machine

/-- The result of `decodePayload` (R140). -/
inductive PayloadResult where
  | decoded (m : DecodedMessage)
  | malformed (nMin : Nat)
  deriving DecidableEq, Repr

/-- R150: the text is the first `n - 1` bytes, the library type the last. -/
def versionRule (p : Bytes) : PayloadResult :=
  match p.getLast? with
  | none => .malformed 1
  | some libType => .decoded (.version p.dropLast libType)

/-- R151: the home id is a big-endian signed 32-bit integer. -/
def memoryIdRule : Bytes → PayloadResult
  | h0 :: h1 :: h2 :: h3 :: nodeId :: _ => .decoded (.memoryId (signed32 (beNat [h0, h1, h2, h3])) nodeId)
  | _ => .malformed 5

/-- R152: 0 means none assigned. -/
def sucNodeIdRule : Bytes → PayloadResult
  | nodeId :: _ => .decoded (.sucNodeId nodeId (nodeId != 0x00))
  | [] => .malformed 1

/-- R153: the header bytes are passed through unchecked. -/
def initDataRule (c : Config) (p : Bytes) : PayloadResult :=
  if p.length < c.initHdrLen + maskLen then .malformed (c.initHdrLen + maskLen)
  else .decoded (.initData (p.take c.initHdrLen) (nodesOf (memRead p c.initHdrLen maskLen)))

/-- R154: the capability bytes are the first two, the device-class codes the last three. -/
def nodeProtocolInfoRule (c : Config) (p : Bytes) : PayloadResult :=
  match p, p.reverse with
  | b0 :: b1 :: _ :: _ :: _ :: _, specific :: generic :: basic :: _ =>
    .decoded (.nodeProtocolInfo (capabilities c b0 b1 basic generic specific))
  | _, _ => .malformed 5

/-- R156: the response form. -/
def sendDataResRule : Bytes → PayloadResult
  | returnValue :: _ => .decoded (.sendData (sendDataResponse returnValue))
  | [] => .malformed 1

/-- R157: the request (callback) form. -/
def sendDataReqRule : Bytes → PayloadResult
  | callbackId :: deliveryStatus :: _ => .decoded (.sendData (sendDataCallback callbackId deliveryStatus))
  | _ => .malformed 2

/-- R158: success exactly for the byte 0x01. -/
def requestNodeInfoRule : Bytes → PayloadResult
  | raw :: _ => .decoded (.requestNodeInfo raw (raw == 0x01))
  | [] => .malformed 1

/-- R159: the tail is passed through. -/
def applicationUpdateRule : Bytes → PayloadResult
  | status :: nodeId :: info => .decoded (.applicationUpdate status nodeId info)
  | _ => .malformed 2

/-- R160: the mask starts at payload offset 0. -/
def routingInfoRule (p : Bytes) : PayloadResult :=
  if p.length < maskLen then .malformed maskLen else .decoded (.routingInfo (nodesOf (memRead p 0 maskLen)))

/-- R161 with `APPCMD_HAS_LEN` false: no length byte. -/
def applicationCommandPlain : Bytes → PayloadResult
  | status :: nodeId :: ccId :: ccBytes => .decoded (.applicationCommand status nodeId none ccId ccBytes)
  | _ => .malformed 3

/-- R161 with `APPCMD_HAS_LEN` true: the length byte is reported and does not trim the tail. -/
def applicationCommandWithLen : Bytes → PayloadResult
  | status :: nodeId :: cmdLen :: ccId :: ccBytes =>
    .decoded (.applicationCommand status nodeId (some cmdLen) ccId ccBytes)
  | _ => .malformed 4

/-- R161. -/
def applicationCommandRule (c : Config) (p : Bytes) : PayloadResult :=
  if c.appcmdHasLen then applicationCommandWithLen p else applicationCommandPlain p

/-- R162: never malformed. -/
def opaqueRule (direction functionCode : Byte) (p : Bytes) : PayloadResult :=
  .decoded (.opaqueFrame direction functionCode p)

/-- The item of a frame's payload result (R205, row `Ok`): the message, or MALFORMED_PAYLOAD (R244). -/
def payloadItem (f : DataFrame) : PayloadResult → Item
  | .decoded m => .msg m
  | .malformed nMin =>
    diagItem (.malformedPayload f.direction f.functionCode (countByte f.rawPayload.length) (countByte nMin))

/-- What every key-level instruction does with its rule (R140, R205): its item, the frame's
`2 + declaredLength` bytes consumed, the frame not retained. -/
def execPayload (rule : Bytes → PayloadResult) (s : State) : Answer :=
  s.withInvocation fun v =>
    match v.frame with
    | none => .fault .noFrame
    | some f =>
      .next (s.setInv (((v.emit (payloadItem f (rule f.rawPayload))).consume (2 + f.declaredLength.toNat)).release))

/-- VERSION (R150). -/
def execVersion (s : State) : Answer := execPayload versionRule s

/-- MEMORY_ID (R151). -/
def execMemoryId (s : State) : Answer := execPayload memoryIdRule s

/-- SUC_NODE_ID (R152). -/
def execSucNodeId (s : State) : Answer := execPayload sucNodeIdRule s

/-- INIT_DATA (R153). -/
def execInitData (s : State) : Answer := execPayload (initDataRule s.cfg) s

/-- NODE_PROTOCOL_INFO (R154). -/
def execNodeProtocolInfo (s : State) : Answer := execPayload (nodeProtocolInfoRule s.cfg) s

/-- SEND_DATA_RES (R156). -/
def execSendDataRes (s : State) : Answer := execPayload sendDataResRule s

/-- SEND_DATA_REQ (R157). -/
def execSendDataReq (s : State) : Answer := execPayload sendDataReqRule s

/-- REQUEST_NODE_INFO (R158). -/
def execRequestNodeInfo (s : State) : Answer := execPayload requestNodeInfoRule s

/-- APPLICATION_UPDATE (R159). -/
def execApplicationUpdate (s : State) : Answer := execPayload applicationUpdateRule s

/-- ROUTING_INFO (R160). -/
def execRoutingInfo (s : State) : Answer := execPayload routingInfoRule s

/-- APPLICATION_COMMAND (R161). -/
def execApplicationCommand (s : State) : Answer := execPayload (applicationCommandRule s.cfg) s

/-- OPAQUE (R162); the two key bytes are the instruction's own fields. -/
def execOpaqueKey (direction functionCode : Byte) (s : State) : Answer :=
  execPayload (opaqueRule direction functionCode) s

end Sys2Proof.Machine
end

