-- ==== Sys2Proof/Machine/Dispatch.lean ====
section
/-! DEFINITION. The one dispatch of every instruction to its meaning. -/

namespace Sys2Proof.Machine

def exec (i : Instr) (s : State) : Host.Outcome State Fault Refusal :=
  match i with
  | .ack => Sys2Proof.Machine.execAck s
  | .nak => Sys2Proof.Machine.execNak s
  | .can => Sys2Proof.Machine.execCan s
  | .sof => Sys2Proof.Machine.execSof s
  | .noise byte => Sys2Proof.Machine.execNoise byte s
  | .version => Sys2Proof.Machine.execVersion s
  | .memoryId => Sys2Proof.Machine.execMemoryId s
  | .sucNodeId => Sys2Proof.Machine.execSucNodeId s
  | .initData => Sys2Proof.Machine.execInitData s
  | .nodeProtocolInfo => Sys2Proof.Machine.execNodeProtocolInfo s
  | .sendDataRes => Sys2Proof.Machine.execSendDataRes s
  | .sendDataReq => Sys2Proof.Machine.execSendDataReq s
  | .requestNodeInfo => Sys2Proof.Machine.execRequestNodeInfo s
  | .applicationUpdate => Sys2Proof.Machine.execApplicationUpdate s
  | .routingInfo => Sys2Proof.Machine.execRoutingInfo s
  | .applicationCommand => Sys2Proof.Machine.execApplicationCommand s
  | .opaqueKey direction functionCode => Sys2Proof.Machine.execOpaqueKey direction functionCode s

end Sys2Proof.Machine
end

