-- ==== Sys2Proof/Machine/Stream.lean ====
section
/-! DEFINITION. The frame notation of rules R75 and R76 as data, and its expansion into bytes: the
encoder of whole frames. -/

namespace Sys2Proof.Machine

/-- The bytes of a well-formed data frame (R62, R76): SOF, LEN, DIRECTION, FUNCTION_CODE, the payload, and
the checksum computed over LEN to the last payload byte. -/
def frameBytes (direction functionCode : Byte) (payload : Bytes) : Bytes :=
  let body := BitVec.ofNat 8 (payload.length + 3) :: direction :: functionCode :: payload
  0x01 :: (body ++ [compute body])

/-- A part of a payload in the notation (`pl` of R75): a byte, or the ASCII bytes of a text. -/
inductive PayloadPart where
  | hex (b : Byte)
  | text (chars : List Char)
  deriving DecidableEq, Repr

/-- The bytes of a payload part. -/
def PayloadPart.bytes : PayloadPart → Bytes
  | .hex b => [b]
  | .text chars => chars.map (fun ch => BitVec.ofNat 8 ch.toNat)

/-- An element of a chunk (`elem` of R75). -/
inductive StreamElem where
  | ack
  | nak
  | can
  | bytes (bs : Bytes)
  | frame (direction functionCode : Byte) (payload : List PayloadPart)
  | rawFrame (len direction functionCode : Byte) (payload : List PayloadPart) (checksum : Byte)
  deriving DecidableEq, Repr

/-- The expansion of an element into bytes (R76). -/
def StreamElem.expand : StreamElem → Bytes
  | .ack => [0x06]
  | .nak => [0x15]
  | .can => [0x18]
  | .bytes bs => bs
  | .frame d f p => frameBytes d f (p.flatMap PayloadPart.bytes)
  | .rawFrame len d f p cks => 0x01 :: len :: d :: f :: (p.flatMap PayloadPart.bytes ++ [cks])

/-- R75, R76: `BYTE` lists at least one byte; the payload of `FRAME` is at most 252 bytes; a text is ASCII. -/
def StreamElem.wf : StreamElem → Bool
  | .ack => true
  | .nak => true
  | .can => true
  | .bytes bs => !bs.isEmpty
  | .frame _ _ p => decide ((p.flatMap PayloadPart.bytes).length ≤ 252) && p.all asciiOnly
  | .rawFrame _ _ _ p _ => p.all asciiOnly
where
  asciiOnly : PayloadPart → Bool
    | .hex _ => true
    | .text chars => chars.all (fun ch => decide (ch.toNat < 128))

/-- A chunk (R75): the expansion of its elements in order. -/
def expandChunk (elems : List StreamElem) : Bytes := elems.flatMap StreamElem.expand

/-- A stream (R75): one invocation for each chunk between the bars. -/
def expandStream (chunks : List (List StreamElem)) : List Call :=
  chunks.map (fun elems => .decode (expandChunk elems))

end Sys2Proof.Machine
end

