-- ==== Sys2Proof/Machine/Load.lean ====
section
/-! DEFINITION. How an instruction word of the opcode table is placed where the next step fetches: the
invocation that is about to run it (notes/assumptions/8.md). -/

namespace Sys2Proof.Machine

/-- An invocation at a scan position whose byte is the word; the four bytes after it, the rest of the
shortest data frame (R60), are 0. -/
def scanWordInvocation (w : Nat) : Invocation :=
  startInvocation [] (BitVec.ofNat 8 w :: List.replicate 4 0x00)

/-- A payload of zeros long enough for every message rule, where `MAX_LEN` leaves the room. -/
def zeroPayload (c : Config) : Bytes := List.replicate (min (c.initHdrLen + maskLen) (c.maxLen - 3)) 0x00

/-- An invocation whose working buffer is one whole valid frame with the word as its key and a payload
of zeros, and whose frame the assembler has accepted. -/
def keyWordInvocation (c : Config) (w : Nat) : Invocation :=
  let direction := BitVec.ofNat 8 (w / 256)
  let functionCode := BitVec.ofNat 8 w
  (startInvocation [] (frameBytes direction functionCode (zeroPayload c))).hand
    { direction := direction, functionCode := functionCode, rawPayload := zeroPayload c,
      declaredLength := BitVec.ofNat 8 ((zeroPayload c).length + 3) }

/-- The invocation about to run a table word of `nbits` bits: a 16-bit word is a key, any other a byte. -/
def wordInvocation (c : Config) (nbits w : Nat) : Invocation :=
  if nbits = 16 then keyWordInvocation c w else scanWordInvocation w

end Sys2Proof.Machine
end

