-- ==== Sys2Proof/Machine/Step.lean ====
section
/-! DEFINITION. One step: the next instruction of the invocation in progress, or its end, or the next
call of the caller. -/

namespace Sys2Proof.Machine

/-- What the block does between invocations: the caller's next operation, if there is one (R252); with
none it does nothing and keeps PB (R257). -/
def stepIdle (s : State) : Answer :=
  match s.calls with
  | [] => .next s
  | call :: rest => { s with calls := rest }.perform call

/-- One step. A configuration that breaks R8 has no meaning (R8). During an invocation the step runs the
instruction at the loop head (R202); with no byte left the invocation ends with an empty PB (R203). -/
def step (s : State) : Host.Outcome State Fault Refusal :=
  if s.cfg.ok then
    match s.inv with
    | none => stepIdle s
    | some v =>
      match v.nextInstr s.cfg with
      | some i => exec i s
      | none => .next (s.finish v [])
  else .refused .badConfiguration

/-- `s` with a table word placed where the next step fetches. -/
def State.withFetchWord (s : State) (nbits w : Nat) : State :=
  { s with inv := some (wordInvocation s.cfg nbits w) }

end Sys2Proof.Machine
end

