-- ==== Sys2Proof/Machine/Orchestrator.lean ====
section
/-! DEFINITION. The Frame Decoder orchestrator as the one function of rule R208, and the registry's
dispatch as the one function of R140. `step` runs the same loop one instruction at a time; that the
two agree is a statement of Certificates/Slice0/Obligations.lean. -/

namespace Sys2Proof.Machine

/-- The rule that decodes the payload for a key-level instruction. A scan-level instruction is never
the decoding of a key; its case keeps the function total (R163). -/
def payloadRule (c : Config) (f : DataFrame) : Instr → Bytes → PayloadResult
  | .version => versionRule
  | .memoryId => memoryIdRule
  | .sucNodeId => sucNodeIdRule
  | .initData => initDataRule c
  | .nodeProtocolInfo => nodeProtocolInfoRule c
  | .sendDataRes => sendDataResRule
  | .sendDataReq => sendDataReqRule
  | .requestNodeInfo => requestNodeInfoRule
  | .applicationUpdate => applicationUpdateRule
  | .routingInfo => routingInfoRule
  | .applicationCommand => applicationCommandRule c
  | .opaqueKey _ _ => opaqueRule f.direction f.functionCode
  | .ack => opaqueRule f.direction f.functionCode
  | .nak => opaqueRule f.direction f.functionCode
  | .can => opaqueRule f.direction f.functionCode
  | .sof => opaqueRule f.direction f.functionCode
  | .noise _ => opaqueRule f.direction f.functionCode

/-- `n_min` of the rule of a key-level instruction (R142, R150 to R162): the shortest payload it decodes. OPAQUE has
0; a scan-level instruction has no payload. -/
def payloadMinimum (c : Config) : Instr → Nat
  | .version => 1
  | .memoryId => 5
  | .sucNodeId => 1
  | .initData => c.initHdrLen + maskLen
  | .nodeProtocolInfo => 5
  | .sendDataRes => 1
  | .sendDataReq => 2
  | .requestNodeInfo => 1
  | .applicationUpdate => 2
  | .routingInfo => maskLen
  | .applicationCommand => if c.appcmdHasLen then 4 else 3
  | .opaqueKey _ _ => 0
  | .ack => 0
  | .nak => 0
  | .can => 0
  | .sof => 0
  | .noise _ => 0

/-- `decodePayload(f)` (R140, R141). -/
def decodePayload (c : Config) (f : DataFrame) : PayloadResult :=
  payloadRule c f (decodeKey c f.direction f.functionCode) f.rawPayload

/-- The loop of rule R208, from cursor `cur` with the items `out` so far. The first argument bounds the
loop passes; R206 says `|W| + 1` of them always suffice, so the case of no passes left is never met
from `decodeChunk`. -/
def decodeLoop (c : Config) (w : Bytes) : Nat → Nat → List Item → List Item × Bytes
  | 0, _, out => (out, [])
  | passes + 1, cur, out =>
    match scan w cur with
    | none => (out, [])
    | some (i, .ack) => decodeLoop c w passes (i + 1) (out ++ [.ctl .ack])
    | some (i, .nak) => decodeLoop c w passes (i + 1) (out ++ [.ctl .nak])
    | some (i, .can) => decodeLoop c w passes (i + 1) (out ++ [.ctl .can])
    | some (i, .sof) =>
      match assemble c w i with
      | .incomplete => (out, w.drop i)
      | .badLength len => decodeLoop c w passes (i + 1) (out ++ [diagItem (.badLength len)])
      | .checksumBad len declared computed =>
        decodeLoop c w passes (i + 2 + len.toNat) (out ++ [diagItem (.checksumMismatch len declared computed)])
      | .ok f =>
        decodeLoop c w passes (i + 2 + f.declaredLength.toNat) (out ++ [payloadItem f (decodePayload c f)])

/-- `decode(PB, chunk)` (R200, R208): the items of the invocation and the new PendingBuffer. -/
def decodeChunk (c : Config) (pb chunk : Bytes) : List Item × Bytes :=
  decodeLoop c (pb ++ chunk) ((pb ++ chunk).length + 1) 0 []

/-- A sequence of invocations on one session (R48): the items of each in turn, each starting from the
PendingBuffer of the last. -/
def decodeChunks (c : Config) : Bytes → List Bytes → List Item × Bytes
  | pb, [] => ([], pb)
  | pb, chunk :: rest =>
    let one := decodeChunk c pb chunk
    let more := decodeChunks c one.2 rest
    (one.1 ++ more.1, more.2)

end Sys2Proof.Machine
end

