-- ==== Sys2Proof/Machine/Serial.lean ====
section
/-! DEFINITION. The byte-serial form of rule R214: the same information as PB, one byte a step. -/

namespace Sys2Proof.Machine

/-- The state of the byte-serial form (R214). -/
inductive SerialState where
  | hunt
  | gotSof
  | body (len : Byte) (q : Bytes)
  deriving DecidableEq, Repr

/-- The PendingBuffer a serial state stands for (R214). -/
def SerialState.toPending : SerialState → Bytes
  | .hunt => []
  | .gotSof => [0x01]
  | .body len q => 0x01 :: len :: q

/-- `σ(PB)` (R214): the state the table pairs with PB. -/
def serialOf : Bytes → SerialState
  | [] => .hunt
  | [_] => .gotSof
  | _ :: len :: q => .body len q

/-- `judge(F)` (R214): the items rule R205 emits for a complete frame of legal length. -/
def judgeFrame (c : Config) (frame : Bytes) : List Item :=
  match assemble c frame 0 with
  | .checksumBad len declared computed => [diagItem (.checksumMismatch len declared computed)]
  | .ok f => [payloadItem f (decodePayload c f)]
  | .incomplete => []
  | .badLength _ => []

/-- `feed(HUNT, b)` (R214). -/
def feedHunt (b : Byte) : List Item × SerialState :=
  match markerOf b with
  | some .ack => ([.ctl .ack], .hunt)
  | some .nak => ([.ctl .nak], .hunt)
  | some .can => ([.ctl .can], .hunt)
  | some .sof => ([], .gotSof)
  | none => ([], .hunt)

/-- `feed(σ, b)` (R214). A bad length byte is scanned again. -/
def feed (c : Config) : SerialState → Byte → List Item × SerialState
  | .hunt, b => feedHunt b
  | .gotSof, b =>
    if !lenLegal c b then
      let again := feedHunt b
      (diagItem (.badLength b) :: again.1, again.2)
    else ([], .body b [])
  | .body len q, b =>
    if (q ++ [b]).length < len.toNat then ([], .body len (q ++ [b]))
    else (judgeFrame c (0x01 :: len :: (q ++ [b])), .hunt)

/-- `feed` over the bytes of a chunk (R214). -/
def feedAll (c : Config) : SerialState → Bytes → List Item × SerialState
  | σ, [] => ([], σ)
  | σ, b :: rest =>
    let one := feed c σ b
    let more := feedAll c one.2 rest
    (one.1 ++ more.1, more.2)

end Sys2Proof.Machine
end

