-- ==== Sys2Proof/Safety.lean ====
section
/-! DEFINITION. What a safe state is: the PendingBuffer invariant of rule R211, the bounds of an
invocation (R24, R25), and the accepted frame being the one that stands at the cursor (R126, R217).
And the terms statements use: a whole frame, noise, what an invocation looks like after one frame. -/

namespace Sys2Proof.Machine

/-- R211: PB is `[]`, `[0x01]`, or `[0x01, L] ++ q` with `L` legal and `|q| < L`. -/
def pendingOk (c : Config) : Bytes → Bool
  | [] => true
  | [b] => b == 0x01
  | b :: len :: q => b == 0x01 && lenLegal c len && decide (q.length < len.toNat)

/-- The accepted frame, if there is one, is what the assembler makes of the SOF at the cursor. -/
def Invocation.frameOk (c : Config) (v : Invocation) : Bool :=
  match v.frame with
  | none => true
  | some f => readByte v.w v.cur == some 0x01 && assemble c v.w v.cur == .ok f

/-- The working buffer starts with PB (R24, R201), the cursor is inside it (R25), and the frame is the
one at the cursor. -/
def Invocation.ok (c : Config) (pb : Bytes) (v : Invocation) : Bool :=
  pb.isPrefixOf v.w && decide (v.cur ≤ v.w.length) && v.frameOk c

/-- The invariant of every reachable state. -/
def State.ok (s : State) : Bool :=
  s.cfg.ok && pendingOk s.cfg s.pb &&
  match s.inv with
  | none => true
  | some v => v.ok s.cfg s.pb

/-- Every diagnostic carries the code of its info (R241). -/
def Item.codeOk : Item → Bool
  | .ctl _ => true
  | .msg _ => true
  | .diag code info => code == info.code

/-- Every diagnostic the machine has emitted, in this invocation or before, carries its code. -/
def State.codesOk (s : State) : Bool :=
  s.returned.all (fun items => items.all Item.codeOk) &&
  match s.inv with
  | none => true
  | some v => v.out.all Item.codeOk

/-- What the invocation in progress will answer: the items and the PendingBuffer that the loop of R208
gives from here on, the accepted frame's item first where one is in hand. -/
def Invocation.answer (c : Config) (v : Invocation) : List Item × Bytes :=
  match v.frame with
  | none => decodeLoop c v.w (v.w.length + 1) v.cur v.out
  | some f =>
    decodeLoop c v.w (v.w.length + 1) (v.cur + 2 + f.declaredLength.toNat)
      (v.out ++ [payloadItem f (decodePayload c f)])

/-- Noise: bytes none of which is a marker (R12, R110). -/
def isNoise (bs : Bytes) : Bool := bs.all (fun b => !isMarker b)

/-- One complete protocol unit (R12, R60): a control byte, or a data frame of legal length, whatever its
checksum. -/
def wholeFrame (c : Config) : Bytes → Bool
  | [b] => b == 0x06 || b == 0x15 || b == 0x18
  | b :: len :: body => b == 0x01 && lenLegal c len && body.length == len.toNat
  | [] => false

/-- An invocation after one item was emitted and `n` bytes were consumed: all else as before. -/
def Invocation.after (v : Invocation) (x : Item) (n : Nat) : Invocation :=
  { v with out := v.out ++ [x], cur := v.cur + n }

/-- A state after the frame `f` of its invocation was decoded into the item `x`: the item appended, the
frame's `2 + L` bytes consumed, the frame not retained, and all else as before. -/
def State.afterFrame (s : State) (v : Invocation) (f : DataFrame) (x : Item) : State :=
  { s with inv := some { w := v.w, cur := v.cur + (2 + f.declaredLength.toNat), out := v.out ++ [x], frame := none } }

/-- The MALFORMED_PAYLOAD item of a frame whose rule needs `nMin` bytes (R244). -/
def malformedItem (f : DataFrame) (nMin : Nat) : Item :=
  .diag 0x03 (.malformedPayload f.direction f.functionCode (countByte f.rawPayload.length) (countByte nMin))

/-- The items an invocation list returns, one sequence for each chunk (R27, R48). -/
def itemsPerChunk (c : Config) : Bytes → List Bytes → List (List Item)
  | _, [] => []
  | pb, chunk :: rest => (decodeChunk c pb chunk).1 :: itemsPerChunk c (decodeChunk c pb chunk).2 rest

/-- `k` steps of the machine. -/
def runSteps (k : Nat) (s : State) : Host.Outcome State Fault Refusal := Sys2Proof.core.run k s

end Sys2Proof.Machine
end

