-- ==== Sys2Proof/Certificates/Slice0/Obligations.lean ====
section
/-! DEFINITION. The statements for the provers, each a `def Obligations.<Name> : Prop`.
Each docstring names the rule of spec/ it formalises, or says that it is derived. A statement about an
instruction gives the whole next state as an equation, so that what it does not name is unchanged. -/

open Sys2Proof Sys2Proof.Machine

/-! ### Encoding -/

/-- Decoding an encoded well-formed instruction gives it back, under every configuration that R8 admits:
the distinctness of the function codes (R8 b, c) is what makes it true. -/
def Obligations.DecodeEncodeAgree : Prop :=
  ∀ (c : Config) (i : Instr) (rest : Bytes), c.ok = true → i.wf c = true →
    decode c i.level (encode c i ++ rest) = .ok (i, rest)

/-- What the decoder answers is a well-formed instruction of the level asked for, and its encoding is
the bytes it was read from. -/
def Obligations.DecodedBytesAreItsEncoding : Prop :=
  ∀ (c : Config) (level : FetchLevel) (bytes rest : Bytes) (i : Instr),
    decode c level bytes = .ok (i, rest) →
    i.level = level ∧ i.wf c = true ∧ encode c i ++ rest = bytes

/-- R67: the first-level map, applied only to the byte at the cursor while no accepted frame is in hand. -/
def Obligations.FirstByteSelectsInstruction : Prop :=
  decodeMarker 0x01 = .sof ∧ decodeMarker 0x06 = .ack ∧ decodeMarker 0x15 = .nak ∧ decodeMarker 0x18 = .can ∧
  (∀ b : Byte, b ≠ 0x01 → b ≠ 0x06 → b ≠ 0x15 → b ≠ 0x18 → decodeMarker b = .noise b) ∧
  (∀ (c : Config) (b : Byte) (rest : Bytes), decode c .scan (b :: rest) = .ok (decodeMarker b, rest)) ∧
  (∀ (c : Config) (v : Invocation) (i : Instr), v.nextInstr c = some i → i.level = .scan →
    v.frame = none ∧ ∃ b, readByte v.w v.cur = some b ∧ i = decodeMarker b)

/-- R68: the key is matched exactly, on both bytes, against the message rows; any other key,
and every key whose direction is not 0x00 or 0x01, is Opaque. The defaults are those of the table. -/
def Obligations.KeySelectsMessageRule : Prop :=
  (∀ c : Config, c.ok = true →
    decodeKey c 0x01 c.fcVersion = .version ∧
    decodeKey c 0x01 c.fcMemoryGetId = .memoryId ∧
    decodeKey c 0x01 c.fcGetSucNodeId = .sucNodeId ∧
    decodeKey c 0x01 c.fcGetInitData = .initData ∧
    decodeKey c 0x01 c.fcGetNodeProtocolInfo = .nodeProtocolInfo ∧
    decodeKey c 0x01 c.fcSendData = .sendDataRes ∧
    decodeKey c 0x00 c.fcSendData = .sendDataReq ∧
    decodeKey c 0x01 c.fcRequestNodeInfo = .requestNodeInfo ∧
    decodeKey c 0x00 c.fcApplicationUpdate = .applicationUpdate ∧
    decodeKey c 0x01 c.fcGetRoutingInfo = .routingInfo ∧
    decodeKey c 0x00 c.fcApplicationCommand = .applicationCommand) ∧
  (∀ (c : Config) (d f : Byte),
    (d = 0x01 → f ∉ [c.fcVersion, c.fcMemoryGetId, c.fcGetSucNodeId, c.fcGetInitData, c.fcGetNodeProtocolInfo,
      c.fcSendData, c.fcRequestNodeInfo, c.fcGetRoutingInfo]) →
    (d = 0x00 → f ∉ [c.fcSendData, c.fcApplicationUpdate, c.fcApplicationCommand]) →
    decodeKey c d f = .opaqueKey d f) ∧
  (Config.default.fcVersion = 0x15 ∧ Config.default.fcMemoryGetId = 0x20 ∧ Config.default.fcGetSucNodeId = 0x56 ∧
    Config.default.fcGetInitData = 0x02 ∧ Config.default.fcGetNodeProtocolInfo = 0x41 ∧
    Config.default.fcSendData = 0x13 ∧ Config.default.fcRequestNodeInfo = 0x60 ∧
    Config.default.fcApplicationUpdate = 0x49 ∧ Config.default.fcGetRoutingInfo = 0x80 ∧
    Config.default.fcApplicationCommand = 0x04)

/-- A few words of spec/opcode_table.json decode to their rows. -/
def Obligations.TableWordsDecode : Prop :=
  decodeTableWord 8 0x06 = some .ack ∧ decodeTableWord 8 0x01 = some .sof ∧
  decodeTableWord 8 0x33 = some (.noise 0x33) ∧ decodeTableWord 16 0x0115 = some .version ∧
  decodeTableWord 16 0x0013 = some .sendDataReq ∧ decodeTableWord 16 0x0113 = some .sendDataRes ∧
  decodeTableWord 16 0x0215 = some (.opaqueKey 0x02 0x15)

/-- A frame written by R62 and R76, wherever it stands in the working buffer, is assembled into exactly
the fields it was written from. Derived: from the layout of R62 and the assembler. -/
def Obligations.WrittenFrameIsAssembled : Prop :=
  ∀ (c : Config) (d f : Byte) (p before behind : Bytes), c.ok = true → p.length + 3 ≤ c.maxLen →
    assemble c (before ++ frameBytes d f p ++ behind) before.length =
      .ok { direction := d, functionCode := f, rawPayload := p, declaredLength := BitVec.ofNat 8 (p.length + 3) }

/-- R76: the expansion of each element of the frame notation. -/
def Obligations.NotationExpansion : Prop :=
  StreamElem.expand .ack = [0x06] ∧ StreamElem.expand .nak = [0x15] ∧ StreamElem.expand .can = [0x18] ∧
  (∀ bs : Bytes, StreamElem.expand (.bytes bs) = bs) ∧
  (∀ (d f : Byte) (p : List Byte), p.length ≤ 252 →
    ∃ len cks : Byte, len.toNat = p.length + 3 ∧
      cks = p.foldl (fun a b => a ^^^ b) (0xFF ^^^ len ^^^ d ^^^ f) ∧
      StreamElem.expand (.frame d f (p.map .hex)) = [0x01, len, d, f] ++ p ++ [cks]) ∧
  (∀ (l d f k : Byte) (p : List Byte),
    StreamElem.expand (.rawFrame l d f (p.map .hex) k) = [0x01, l, d, f] ++ p ++ [k])

/-! ### The Checksum Unit -/

/-- R100: the fold seeded with 0xFF, and its consequences. -/
def Obligations.ChecksumFold : Prop :=
  compute [] = 0xFF ∧
  (∀ (s : Bytes) (b : Byte), compute (s ++ [b]) = compute s ^^^ b) ∧
  (∀ s t : Bytes, s.Perm t → compute s = compute t) ∧
  (∀ (x : Byte) (pre mid post : Bytes),
    compute (pre ++ [x] ++ mid ++ [x] ++ post) = compute (pre ++ mid ++ post)) ∧
  (∀ s : Bytes, compute (s ++ [compute s]) = 0x00) ∧
  compute [0x04, 0x01, 0x13, 0x01] = 0xE8

/-- R101: exactly one checksum byte validates a sequence, one corrupted byte is always found, and two
corruptions by the same bits cancel. -/
def Obligations.ChecksumDetectsOneCorruption : Prop :=
  (∀ (s : Bytes) (k : Byte), validate s k = true ↔ compute s = k) ∧
  (∀ s : Bytes, ∃! k : Byte, validate s k = true) ∧
  (∀ (s : Bytes) (k k' : Byte), validate s k = true → k' ≠ k → validate s k' = false) ∧
  (∀ (pre post : Bytes) (x y k : Byte), validate (pre ++ [x] ++ post) k = true → y ≠ x →
    validate (pre ++ [y] ++ post) k = false) ∧
  (∀ (pre mid post : Bytes) (x y flip k : Byte), validate (pre ++ [x] ++ mid ++ [y] ++ post) k = true →
    validate (pre ++ [x ^^^ flip] ++ mid ++ [y ^^^ flip] ++ post) k = true) ∧
  validate [0x05, 0x00, 0x13, 0x02, 0x00] 0xEB = true

/-! ### The scanner and the assembler -/

/-- R110 and R111: `scan` answers the first marker at or after `start`, with its kind, and `none` when
there is none. -/
def Obligations.ScanFindsFirstMarker : Prop :=
  (∀ b : Byte, isMarker b = true ↔ b = 0x06 ∨ b = 0x15 ∨ b = 0x18 ∨ b = 0x01) ∧
  (∀ b : Byte, (markerOf b = some .ack ↔ b = 0x06) ∧ (markerOf b = some .nak ↔ b = 0x15) ∧
    (markerOf b = some .can ↔ b = 0x18) ∧ (markerOf b = some .sof ↔ b = 0x01)) ∧
  (∀ (w : Bytes) (start : Nat),
    scan w start = none ↔ ∀ j b, start ≤ j → readByte w j = some b → isMarker b = false) ∧
  (∀ (w : Bytes) (start i : Nat) (k : Marker),
    scan w start = some (i, k) ↔
      start ≤ i ∧ (∃ b, readByte w i = some b ∧ markerOf b = some k) ∧
      ∀ j b, start ≤ j → j < i → readByte w j = some b → isMarker b = false)

/-- R128 (R121 to R126): the assembler as one function, each outcome from the bytes from the SOF on,
whatever stands before the SOF and after the frame. -/
def Obligations.AssemblerOutcomes : Prop :=
  ∀ (c : Config) (before : Bytes),
    assemble c (before ++ [0x01]) before.length = .incomplete ∧
    (∀ (len : Byte) (body : Bytes),
      (len.toNat < 3 ∨ c.maxLen < len.toNat →
        assemble c (before ++ 0x01 :: len :: body) before.length = .badLength len) ∧
      (3 ≤ len.toNat → len.toNat ≤ c.maxLen → body.length < len.toNat →
        assemble c (before ++ 0x01 :: len :: body) before.length = .incomplete)) ∧
    (∀ (len d f cks : Byte) (p behind : Bytes),
      3 ≤ len.toNat → len.toNat ≤ c.maxLen → p.length + 3 = len.toNat →
      assemble c (before ++ 0x01 :: len :: d :: f :: (p ++ cks :: behind)) before.length =
        if compute (len :: d :: f :: p) = cks then
          .ok { direction := d, functionCode := f, rawPayload := p, declaredLength := len }
        else .checksumBad len cks (compute (len :: d :: f :: p)))

/-- The outcome of the assembler depends only on the bytes from `s` on. Derived: a corner case of the
assembler's function. -/
def Obligations.AssemblerIgnoresEarlierBytes : Prop :=
  ∀ (c : Config) (before w : Bytes) (s : Nat),
    assemble c (before ++ w) (before.length + s) = assemble c w s

/-! ### Operands and flags -/

/-- R144: the ids of a mask of 29 bytes, ascending, each once, from 1 to 232. -/
def Obligations.NodeMaskIds : Prop :=
  (∀ m : Bytes, m.length = maskLen →
    (nodesOf m).Pairwise (· < ·) ∧
    (∀ k, k ∈ nodesOf m ↔ ∃ j i b, i < 8 ∧ readByte m j = some b ∧ b.toNat.testBit i = true ∧ k = 8 * j + i + 1) ∧
    (∀ k ∈ nodesOf m, 1 ≤ k ∧ k ≤ 232)) ∧
  nodesOf (List.replicate 29 0x00) = [] ∧
  nodesOf (List.replicate 29 0xFF) = (List.range 232).map (fun k => k + 1) ∧
  nodesOf (0x02 :: List.replicate 28 0x00) = [2] ∧
  nodeIdMax = 232

/-- R145 and R155: a flag is a bit, a field is a natural below `2^w`, and the tier table has two entries. -/
def Obligations.BitHelpersAndTierTable : Prop :=
  (∀ (b : Byte) (i : Nat), flag b i = b.toNat.testBit i) ∧
  (∀ (b : Byte) (lo w : Nat), field b lo w = b.toNat / 2 ^ lo % 2 ^ w) ∧
  (∀ (b : Byte) (lo w : Nat), field b lo w < 2 ^ w) ∧
  flag 0x93 7 = true ∧ field 0x93 4 2 = 1 ∧ field 0x93 0 3 = 3 ∧
  tierTable 0 = some 9600 ∧ tierTable 1 = some 40000 ∧ ∀ t, t ≠ 0 → t ≠ 1 → tierTable t = none

/-- Derived, with log 7: a diagnostic's count byte is the count wherever a byte can hold it. Above 255 the spec
states no byte and the model leaves it free. -/
def Obligations.CountByteIsTheCount : Prop := ∀ k : Nat, k < 256 → (countByte k).toNat = k

/-! ### The scan-level instructions -/

/-- R114, R115 and R116: a control marker's instruction emits its item and consumes its byte, and all else is
unchanged; complete the moment its byte is there, so never kept in PB. -/
def Obligations.ControlFramesComplete : Prop :=
  decodeMarker 0x06 = .ack ∧ decodeMarker 0x15 = .nak ∧ decodeMarker 0x18 = .can ∧
  (∀ (s : State) (v : Invocation), s.inv = some v →
    exec .ack s = .next { s with inv := some (v.after (.ctl .ack) 1) } ∧
    exec .nak s = .next { s with inv := some (v.after (.ctl .nak) 1) } ∧
    exec .can s = .next { s with inv := some (v.after (.ctl .can) 1) }) ∧
  (∀ c : Config, decodeChunk c [] [0x06] = ([.ctl .ack], []) ∧ decodeChunk c [] [0x15] = ([.ctl .nak], []) ∧
    decodeChunk c [] [0x18, 0x18] = ([.ctl .can, .ctl .can], []))

/-- R112 and R113: noise bytes are consumed one by one, with no item and no diagnostic and all else unchanged, up
to the marker or to the end, where PB is left empty; and only at a scan position, with no frame in hand. -/
def Obligations.NoiseCompletes : Prop :=
  (∀ (s : State) (v : Invocation) (b : Byte), s.inv = some v →
    exec (.noise b) s = .next { s with inv := some { v with cur := v.cur + 1 } }) ∧
  (∀ (c : Config) (noise rest : Bytes), isNoise noise = true →
    decodeChunk c [] (noise ++ rest) = decodeChunk c [] rest ∧ decodeChunk c [] noise = ([], [])) ∧
  (∀ (c : Config) (v : Invocation) (b : Byte), v.nextInstr c = some (.noise b) →
    v.frame = none ∧ readByte v.w v.cur = some b ∧ isMarker b = false)

/-- Derived from R117 and R205: what SOF does on each outcome of the assembler. That an accepted frame is handed on
with nothing consumed, and decoded by the step after (its item, its bytes consumed, the frame not retained), is the
model's choice (log 10): R205 does both in one pass. -/
def Obligations.SofActsOnOutcome : Prop :=
  ∀ (s : State) (v : Invocation) (before : Bytes), s.inv = some v → v.cur = before.length →
    (v.w = before ++ [0x01] →
      exec .sof s = .next { s with pb := [0x01], inv := none, returned := s.returned ++ [v.out] }) ∧
    (∀ (len : Byte) (body : Bytes), v.w = before ++ 0x01 :: len :: body →
      (len.toNat < 3 ∨ s.cfg.maxLen < len.toNat →
        exec .sof s = .next { s with inv := some (v.after (.diag 0x02 (.badLength len)) 1) }) ∧
      (3 ≤ len.toNat → len.toNat ≤ s.cfg.maxLen → body.length < len.toNat →
        exec .sof s =
          .next { s with pb := 0x01 :: len :: body, inv := none, returned := s.returned ++ [v.out] })) ∧
    (∀ (len d f cks : Byte) (p behind : Bytes),
      v.w = before ++ 0x01 :: len :: d :: f :: (p ++ cks :: behind) →
      3 ≤ len.toNat → len.toNat ≤ s.cfg.maxLen → p.length + 3 = len.toNat →
      (compute (len :: d :: f :: p) ≠ cks →
        exec .sof s = .next (s.setInv
          (v.after (.diag 0x01 (.checksumMismatch len cks (compute (len :: d :: f :: p)))) (2 + len.toNat)))) ∧
      (compute (len :: d :: f :: p) = cks →
        exec .sof s = .next (s.setInv { v with frame := some ⟨d, f, p, len⟩ }) ∧
        (s.cfg.ok = true → step (s.setInv { v with frame := some ⟨d, f, p, len⟩ }) =
          .next (s.afterFrame v ⟨d, f, p, len⟩ (match decodePayload s.cfg ⟨d, f, p, len⟩ with
            | .decoded m => .msg m
            | .malformed k => malformedItem ⟨d, f, p, len⟩ k)))))

/-! ### The payload decoders

`s.inv = some v` and `v.frame = some f` are the hypotheses of every one: an invocation is in progress and
the assembler has accepted the frame `f`. `afterFrame` is the state with one item more, the frame's
`2 + L` bytes consumed, the frame not retained, and all else unchanged. A count byte of a diagnostic above 255 is
free (log 7). -/

/-- R150: Version info. -/
def Obligations.VersionDecodes : Prop :=
  (∀ c : Config, c.ok = true → decodeKey c 0x01 c.fcVersion = .version) ∧
  ∀ (s : State) (v : Invocation) (f : DataFrame), s.inv = some v → v.frame = some f →
    (f.rawPayload.length < 1 → exec .version s = .next (s.afterFrame v f (malformedItem f 1))) ∧
    (∀ (text : Bytes) (libType : Byte), f.rawPayload = text ++ [libType] →
      exec .version s = .next (s.afterFrame v f (.msg (.version text libType))))

/-- R151: Memory/home identifier; the home id is the two's-complement reading of the four bytes, most
significant first. -/
def Obligations.MemoryIdDecodes : Prop :=
  (∀ c : Config, c.ok = true → decodeKey c 0x01 c.fcMemoryGetId = .memoryId) ∧
  ∀ (s : State) (v : Invocation) (f : DataFrame), s.inv = some v → v.frame = some f →
    (f.rawPayload.length < 5 → exec .memoryId s = .next (s.afterFrame v f (malformedItem f 5))) ∧
    (∀ (h0 h1 h2 h3 nodeId : Byte) (rest : Bytes), f.rawPayload = h0 :: h1 :: h2 :: h3 :: nodeId :: rest →
      exec .memoryId s = .next (s.afterFrame v f (.msg (.memoryId (h0 ++ h1 ++ h2 ++ h3).toInt nodeId))))

/-- R152: Successor-node id. -/
def Obligations.SucNodeIdDecodes : Prop :=
  (∀ c : Config, c.ok = true → decodeKey c 0x01 c.fcGetSucNodeId = .sucNodeId) ∧
  ∀ (s : State) (v : Invocation) (f : DataFrame), s.inv = some v → v.frame = some f →
    (f.rawPayload.length < 1 → exec .sucNodeId s = .next (s.afterFrame v f (malformedItem f 1))) ∧
    (∀ (nodeId : Byte) (rest : Bytes), f.rawPayload = nodeId :: rest →
      exec .sucNodeId s = .next (s.afterFrame v f (.msg (.sucNodeId nodeId (decide (nodeId ≠ 0x00))))))

/-- R153: Network init data. -/
def Obligations.InitDataDecodes : Prop :=
  (∀ c : Config, c.ok = true → decodeKey c 0x01 c.fcGetInitData = .initData) ∧
  ∀ (s : State) (v : Invocation) (f : DataFrame), s.inv = some v → v.frame = some f →
    (f.rawPayload.length < s.cfg.initHdrLen + 29 →
      exec .initData s = .next (s.afterFrame v f (malformedItem f (s.cfg.initHdrLen + 29)))) ∧
    (∀ header mask rest : Bytes, f.rawPayload = header ++ mask ++ rest →
      header.length = s.cfg.initHdrLen → mask.length = 29 →
      exec .initData s = .next (s.afterFrame v f (.msg (.initData header (nodesOf mask)))))

/-- R154: Node protocol capability. The capability bytes are the first two, the device-class codes the
last three, whatever stands between. -/
def Obligations.NodeProtocolInfoDecodes : Prop :=
  (∀ c : Config, c.ok = true → decodeKey c 0x01 c.fcGetNodeProtocolInfo = .nodeProtocolInfo) ∧
  ∀ (s : State) (v : Invocation) (f : DataFrame), s.inv = some v → v.frame = some f →
    (f.rawPayload.length < 5 → exec .nodeProtocolInfo s = .next (s.afterFrame v f (malformedItem f 5))) ∧
    (∀ (b0 b1 basic generic specific : Byte) (mid : Bytes),
      f.rawPayload = b0 :: b1 :: (mid ++ [basic, generic, specific]) →
      exec .nodeProtocolInfo s = .next (s.afterFrame v f (.msg (.nodeProtocolInfo
        { cap0 := b0, cap1 := b1,
          listening := b0.toNat.testBit s.cfg.npiListeningBit,
          tier := b0.toNat / 2 ^ s.cfg.npiTierLo % 2 ^ s.cfg.npiTierW,
          baud :=
            if b0.toNat / 2 ^ s.cfg.npiTierLo % 2 ^ s.cfg.npiTierW = 0 then some 9600
            else if b0.toNat / 2 ^ s.cfg.npiTierLo % 2 ^ s.cfg.npiTierW = 1 then some 40000
            else none,
          version := b0.toNat / 2 ^ s.cfg.npiVerLo % 2 ^ s.cfg.npiVerW,
          routing := b1.toNat.testBit s.cfg.npiRoutingBit,
          beaming := b1.toNat.testBit s.cfg.npiBeamingBit,
          security := b1.toNat.testBit s.cfg.npiSecurityBit,
          basic := basic, generic := generic, specific := specific }))))

/-- R156: Send-data result, response form; and the reads of its fields (U7). -/
def Obligations.SendDataResponseDecodes : Prop :=
  (∀ c : Config, c.ok = true → decodeKey c 0x01 c.fcSendData = .sendDataRes) ∧
  (∀ (s : State) (v : Invocation) (f : DataFrame), s.inv = some v → v.frame = some f →
    (f.rawPayload.length < 1 → exec .sendDataRes s = .next (s.afterFrame v f (malformedItem f 1))) ∧
    (∀ (b : Byte) (rest : Bytes), f.rawPayload = b :: rest →
      exec .sendDataRes s = .next (s.afterFrame v f (.msg (.sendData
        { hasReturnValue := true, returnValue := some b,
          hasCallback := false, callbackId := none, deliveryStatus := none }))))) ∧
  (∀ r : SendData, (r.returnValue = none → r.readReturnValue = .fault .absentField) ∧
    (r.callbackId = none → r.readCallbackId = .fault .absentField) ∧
    (r.deliveryStatus = none → r.readDeliveryStatus = .fault .absentField) ∧
    (∀ b, r.returnValue = some b → r.readReturnValue = .next b) ∧
    (∀ b, r.callbackId = some b → r.readCallbackId = .next b) ∧
    (∀ b, r.deliveryStatus = some b → r.readDeliveryStatus = .next b))

/-- R157: Send-data result, request (callback) form. -/
def Obligations.SendDataCallbackDecodes : Prop :=
  (∀ c : Config, c.ok = true → decodeKey c 0x00 c.fcSendData = .sendDataReq) ∧
  ∀ (s : State) (v : Invocation) (f : DataFrame), s.inv = some v → v.frame = some f →
    (f.rawPayload.length < 2 → exec .sendDataReq s = .next (s.afterFrame v f (malformedItem f 2))) ∧
    (∀ (a b : Byte) (rest : Bytes), f.rawPayload = a :: b :: rest →
      exec .sendDataReq s = .next (s.afterFrame v f (.msg (.sendData
        { hasReturnValue := false, returnValue := none,
          hasCallback := true, callbackId := some a, deliveryStatus := some b }))))

/-- R158: Request-node-info result. -/
def Obligations.RequestNodeInfoDecodes : Prop :=
  (∀ c : Config, c.ok = true → decodeKey c 0x01 c.fcRequestNodeInfo = .requestNodeInfo) ∧
  ∀ (s : State) (v : Invocation) (f : DataFrame), s.inv = some v → v.frame = some f →
    (f.rawPayload.length < 1 → exec .requestNodeInfo s = .next (s.afterFrame v f (malformedItem f 1))) ∧
    (∀ (raw : Byte) (rest : Bytes), f.rawPayload = raw :: rest →
      exec .requestNodeInfo s = .next (s.afterFrame v f (.msg (.requestNodeInfo raw (decide (raw = 0x01))))))

/-- R159: Application update notice; the tail is passed through. -/
def Obligations.ApplicationUpdateDecodes : Prop :=
  (∀ c : Config, c.ok = true → decodeKey c 0x00 c.fcApplicationUpdate = .applicationUpdate) ∧
  ∀ (s : State) (v : Invocation) (f : DataFrame), s.inv = some v → v.frame = some f →
    (f.rawPayload.length < 2 → exec .applicationUpdate s = .next (s.afterFrame v f (malformedItem f 2))) ∧
    (∀ (status nodeId : Byte) (info : Bytes), f.rawPayload = status :: nodeId :: info →
      exec .applicationUpdate s = .next (s.afterFrame v f (.msg (.applicationUpdate status nodeId info))))

/-- R160: Routing info; the mask starts at payload offset 0. -/
def Obligations.RoutingInfoDecodes : Prop :=
  (∀ c : Config, c.ok = true → decodeKey c 0x01 c.fcGetRoutingInfo = .routingInfo) ∧
  ∀ (s : State) (v : Invocation) (f : DataFrame), s.inv = some v → v.frame = some f →
    (f.rawPayload.length < 29 → exec .routingInfo s = .next (s.afterFrame v f (malformedItem f 29))) ∧
    (∀ mask rest : Bytes, f.rawPayload = mask ++ rest → mask.length = 29 →
      exec .routingInfo s = .next (s.afterFrame v f (.msg (.routingInfo (nodesOf mask)))))

/-- R161: Application command envelope, without and with the length byte. -/
def Obligations.ApplicationCommandDecodes : Prop :=
  (∀ c : Config, c.ok = true → decodeKey c 0x00 c.fcApplicationCommand = .applicationCommand) ∧
  ∀ (s : State) (v : Invocation) (f : DataFrame), s.inv = some v → v.frame = some f →
    (s.cfg.appcmdHasLen = false →
      (f.rawPayload.length < 3 → exec .applicationCommand s = .next (s.afterFrame v f (malformedItem f 3))) ∧
      (∀ (status nodeId ccId : Byte) (ccBytes : Bytes), f.rawPayload = status :: nodeId :: ccId :: ccBytes →
        exec .applicationCommand s =
          .next (s.afterFrame v f (.msg (.applicationCommand status nodeId none ccId ccBytes))))) ∧
    (s.cfg.appcmdHasLen = true →
      (f.rawPayload.length < 4 → exec .applicationCommand s = .next (s.afterFrame v f (malformedItem f 4))) ∧
      (∀ (status nodeId cmdLen ccId : Byte) (ccBytes : Bytes),
        f.rawPayload = status :: nodeId :: cmdLen :: ccId :: ccBytes →
        exec .applicationCommand s =
          .next (s.afterFrame v f (.msg (.applicationCommand status nodeId (some cmdLen) ccId ccBytes)))))

/-- R162: the generic frame, never malformed. Its two key bytes are those of the frame when the step
decodes it. -/
def Obligations.OpaqueDecodes : Prop :=
  (∀ (c : Config) (d k : Byte), c.knownKey d k = false → decodeKey c d k = .opaqueKey d k) ∧
  ∀ (s : State) (v : Invocation) (f : DataFrame), s.inv = some v → v.frame = some f →
    exec (.opaqueKey f.direction f.functionCode) s =
      .next (s.afterFrame v f (.msg (.opaqueFrame f.direction f.functionCode f.rawPayload)))

/-! ### Frames -/

/-- ACK, NAK, CAN and NOISE change the cursor and at most the output: the configuration, PB, the calls,
what was returned, the accepted frame and every byte of the working buffer are unchanged. Derived. -/
def Obligations.ControlAndNoiseFrame : Prop :=
  ∀ (i : Instr) (s t : State), (i = .ack ∨ i = .nak ∨ i = .can ∨ ∃ b, i = .noise b) → exec i s = .next t →
    t.cfg = s.cfg ∧ t.pb = s.pb ∧ t.calls = s.calls ∧ t.returned = s.returned ∧
    ∃ v u : Invocation, s.inv = some v ∧ t.inv = some u ∧ u.cur = v.cur + 1 ∧ u.frame = v.frame ∧
      u.w.length = v.w.length ∧ ∀ a, readByte u.w a = readByte v.w a

/-- SOF while the invocation goes on changes only the cursor, the output and the accepted frame; where it ends
the invocation it writes PB with the bytes from the SOF on and returns the items emitted so far. Derived. -/
def Obligations.SofFrame : Prop :=
  ∀ s t : State, exec .sof s = .next t →
    t.cfg = s.cfg ∧ t.calls = s.calls ∧
    ∃ v : Invocation, s.inv = some v ∧
      ((∃ u : Invocation, t.inv = some u ∧ t.pb = s.pb ∧ t.returned = s.returned ∧
          u.w.length = v.w.length ∧ ∀ a, readByte u.w a = readByte v.w a) ∨
        (assemble s.cfg v.w v.cur = .incomplete ∧ t.inv = none ∧ t.pb = v.w.drop v.cur ∧
          t.returned = s.returned ++ [v.out]))

/-- Every payload decoder changes only the cursor, the output (one item more) and the frame it has decoded:
the configuration, PB, the calls, what was returned and every byte of the working buffer are unchanged.
Derived. -/
def Obligations.PayloadDecoderFrame : Prop :=
  ∀ (i : Instr) (s t : State), i.level = .key → exec i s = .next t →
    t.cfg = s.cfg ∧ t.pb = s.pb ∧ t.calls = s.calls ∧ t.returned = s.returned ∧
    ∃ (v u : Invocation) (f : DataFrame) (x : Item), s.inv = some v ∧ t.inv = some u ∧ v.frame = some f ∧
      u.frame = none ∧ u.cur = v.cur + (2 + f.declaredLength.toNat) ∧ u.out = v.out ++ [x] ∧
      u.w.length = v.w.length ∧ ∀ a, readByte u.w a = readByte v.w a

/-- A meaning asked for where its invocation or its frame does not exist stops by name (the model's
choice, log 5; no step does so). -/
def Obligations.MeaningsNeedTheirContext : Prop :=
  (∀ (i : Instr) (s : State), s.inv = none → exec i s = .fault .noInvocation) ∧
  (∀ (i : Instr) (s : State) (v : Invocation), i.level = .key → s.inv = some v → v.frame = none →
    exec i s = .fault .noFrame)

/-! ### The step -/

/-- When the bytes at the cursor, or the key of the accepted frame, decode to an instruction, the step is
that instruction's meaning and nothing else. -/
def Obligations.StepRunsTheDecodedInstruction : Prop :=
  (∀ (s : State) (v : Invocation) (i : Instr) (rest : Bytes), s.cfg.ok = true → s.inv = some v →
    decode s.cfg v.level v.fetchBytes = .ok (i, rest) → step s = exec i s) ∧
  (∀ (s : State) (v : Invocation) (before behind : Bytes) (b : Byte), s.cfg.ok = true → s.inv = some v →
    v.frame = none → v.w = before ++ b :: behind → v.cur = before.length → step s = exec (decodeMarker b) s) ∧
  (∀ (s : State) (v : Invocation) (f : DataFrame), s.cfg.ok = true → s.inv = some v → v.frame = some f →
    step s = exec (decodeKey s.cfg f.direction f.functionCode) s)

/-- At the end of the working buffer the invocation ends with an empty PB (the end of the scan). Derived. -/
def Obligations.StepEndsInvocationAtBufferEnd : Prop :=
  ∀ (s : State) (v : Invocation), s.cfg.ok = true → s.inv = some v → v.frame = none → v.w.length ≤ v.cur →
    step s = .next { s with pb := [], inv := none, returned := s.returned ++ [v.out] }

/-- Between invocations the step takes the caller's next call: an invocation starts with `W = PB ++ chunk`,
the cursor 0 and no item; a reset empties PB; with no call nothing changes. Derived, with log 3: the list of calls
is the model's. -/
def Obligations.StepTakesTheNextCall : Prop :=
  ∀ s : State, s.cfg.ok = true → s.inv = none →
    (s.calls = [] → step s = .next s) ∧
    (∀ (chunk : Bytes) (rest : List Call), s.calls = .decode chunk :: rest →
      step s = .next { s with calls := rest, inv := some { w := s.pb ++ chunk, cur := 0, out := [], frame := none } }) ∧
    (∀ rest : List Call, s.calls = .reset :: rest → step s = .next { s with calls := rest, pb := [] })

/-- No error stops the block: with a legal configuration every step answers a next state, in every
state, reachable or not. Derived. -/
def Obligations.StepNeverStops : Prop := ∀ s : State, s.cfg.ok = true → ∃ t, step s = .next t

/-- Derived from R8: the constraints on the parameters, and the refusal of a configuration that breaks one. That the
flag positions lie within bits 7 to 0 is read from R8(e) and R145 (log 13). -/
def Obligations.BadConfigurationIsRefused : Prop :=
  (∀ c : Config, c.ok = true ↔
    (minLen ≤ 16 ∧ 16 ≤ c.maxLen ∧ c.maxLen ≤ 255) ∧
    List.Pairwise (· ≠ ·) [c.fcVersion, c.fcMemoryGetId, c.fcGetSucNodeId, c.fcGetInitData,
      c.fcGetNodeProtocolInfo, c.fcSendData, c.fcRequestNodeInfo, c.fcGetRoutingInfo] ∧
    List.Pairwise (· ≠ ·) [c.fcSendData, c.fcApplicationUpdate, c.fcApplicationCommand] ∧
    ((∀ i, c.npiTierLo ≤ i → i < c.npiTierLo + c.npiTierW →
        i ≠ c.npiListeningBit ∧ ¬ (c.npiVerLo ≤ i ∧ i < c.npiVerLo + c.npiVerW)) ∧
      ¬ (c.npiVerLo ≤ c.npiListeningBit ∧ c.npiListeningBit < c.npiVerLo + c.npiVerW) ∧
      c.npiRoutingBit ≠ c.npiBeamingBit ∧ c.npiRoutingBit ≠ c.npiSecurityBit ∧
      c.npiBeamingBit ≠ c.npiSecurityBit) ∧
    (1 ≤ c.npiTierW ∧ c.npiTierW ≤ 8 ∧ 1 ≤ c.npiVerW ∧ c.npiVerW ≤ 8 ∧
      c.npiTierLo + c.npiTierW ≤ 8 ∧ c.npiVerLo + c.npiVerW ≤ 8 ∧
      c.npiListeningBit ≤ 7 ∧ c.npiRoutingBit ≤ 7 ∧ c.npiBeamingBit ≤ 7 ∧ c.npiSecurityBit ≤ 7)) ∧
  (∀ s : State, s.cfg.ok = false → step s = .refused .badConfiguration) ∧
  (∀ c : Config, c.ok = false → State.boot c = .refused .badConfiguration) ∧
  Config.default.ok = true

/-- The configuration never changes: no step writes it, and a request to change it is refused. Derived. -/
def Obligations.ConfigurationIsFixed : Prop :=
  (∀ s t : State, step s = .next t → t.cfg = s.cfg) ∧
  (∀ (s : State) (c : Config), c ≠ s.cfg → s.configure c = .refused .configurationFixed)

/-- One step of an invocation in progress is invisible to the caller until the invocation ends: the calls
wait, PB and what was returned do not change, the working buffer is never written, the cursor never goes back,
items are only appended, at most one a step; and the end writes PB and returns the items. Derived. -/
def Obligations.InvocationIsAtomicToTheCaller : Prop :=
  ∀ (s t : State) (v : Invocation), s.inv = some v → step s = .next t →
    t.cfg = s.cfg ∧ t.calls = s.calls ∧
    ((∃ u : Invocation, t.inv = some u ∧ t.pb = s.pb ∧ t.returned = s.returned ∧ u.w = v.w ∧ v.cur ≤ u.cur ∧
        (u.out = v.out ∨ ∃ x, u.out = v.out ++ [x])) ∨
      (t.inv = none ∧ t.returned = s.returned ++ [v.out] ∧ (t.pb = [] ∨ t.pb = v.w.drop v.cur)))

/-! ### The environment operations -/

/-- R274: a call that overlaps an invocation is refused. -/
def Obligations.OverlappingCallIsRefused : Prop :=
  ∀ (s : State) (v : Invocation), s.inv = some v →
    (∀ chunk, s.invoke chunk = .refused .overlappingCall) ∧ s.resetSession = .refused .overlappingCall

/-- R270: reset sets PB to its reset value, emits no item, and loses a partial frame without a
diagnostic. -/
def Obligations.ResetLosesThePartialFrame : Prop :=
  ∀ s : State, (s.inv = none →
      ∃ t, s.resetSession = .next t ∧ t = { s with pb := [] } ∧ t.returned = s.returned ∧ t.mode = .idle) ∧
    (∀ v, s.inv = some v → s.resetSession = .refused .overlappingCall)

/-- R34: the reset values, and the invariants hold of them. -/
def Obligations.ResetValues : Prop :=
  State.reset.pb = [] ∧ State.reset.mode = .idle ∧ State.reset.inv = none ∧ State.reset.ok = true ∧
  State.reset.codesOk = true

/-- R22: the mode is a function of PB. -/
def Obligations.ModeIsDerivedFromPending : Prop :=
  ∀ s : State, (s.mode = .idle ↔ s.pb.length = 0) ∧ (s.mode = .awaitingMore ↔ 0 < s.pb.length)

/-! ### Invariants -/

/-- Every step keeps the invariant: PB as R211 says, the working buffer starting with PB, the cursor inside
it, and the accepted frame the one the assembler makes at the cursor. Derived. -/
def Obligations.StepKeepsTheInvariant : Prop :=
  ∀ s t : State, s.ok = true → step s = .next t → t.ok = true

/-- R241: the three codes, and every diagnostic ever emitted carries the code of its info. -/
def Obligations.DiagnosticCodes : Prop :=
  (∀ l d k, DiagInfo.code (.checksumMismatch l d k) = 0x01) ∧ (∀ l, DiagInfo.code (.badLength l) = 0x02) ∧
  (∀ d f n m, DiagInfo.code (.malformedPayload d f n m) = 0x03) ∧
  (∀ s t : State, s.codesOk = true → step s = .next t → t.codesOk = true)

/-- R217: a MSG item is emitted only for a frame whose checksum validated, and a CTL item only for the one
marker byte at the scan position. -/
def Obligations.ItemsAreBackedByBytes : Prop :=
  ∀ (s t : State) (v u : Invocation), s.ok = true → s.inv = some v → step s = .next t → t.inv = some u →
    (∀ m, u.out = v.out ++ [.msg m] →
      ∃ len cks : Byte, readByte v.w v.cur = some 0x01 ∧ readByte v.w (v.cur + 1) = some len ∧
        readByte v.w (v.cur + 1 + len.toNat) = some cks ∧
        validate (memRead v.w (v.cur + 1) len.toNat) cks = true ∧ u.cur = v.cur + 2 + len.toNat) ∧
    (∀ k, u.out = v.out ++ [.ctl k] →
      ∃ b : Byte, readByte v.w v.cur = some b ∧ u.cur = v.cur + 1 ∧
        ((k = .ack ∧ b = 0x06) ∨ (k = .nak ∧ b = 0x15) ∨ (k = .can ∧ b = 0x18)))

/-! ### The invocation as one function -/

/-- The steps of one invocation, from the call to its end, are the one function `decode(PB, chunk)`: its
items returned, its PB kept, in at most `|W| + 2` steps. The step machine refines the atomic invocation.
Derived. -/
def Obligations.InvocationRefinesDecode : Prop :=
  ∀ (s : State) (chunk : Bytes) (rest : List Call), s.cfg.ok = true → s.inv = none →
    s.calls = .decode chunk :: rest →
    ∃ k, k ≤ (s.pb ++ chunk).length + 2 ∧
      runSteps k s =
        .next { s with calls := rest
                       pb := (decodeChunk s.cfg s.pb chunk).2
                       returned := s.returned ++ [(decodeChunk s.cfg s.pb chunk).1] }

/-- A session of invocations returns, for each chunk in turn, the items of `decode` from the PB the
previous one left. Derived. -/
def Obligations.SessionRefinesDecodes : Prop :=
  ∀ (s : State) (chunks : List Bytes), s.cfg.ok = true → s.inv = none → s.calls = chunks.map .decode →
    ∃ k, runSteps k s =
      .next { s with calls := []
                     pb := (decodeChunks s.cfg s.pb chunks).2
                     returned := s.returned ++ itemsPerChunk s.cfg s.pb chunks }

/-- The loop of an invocation needs no more than `|W| + 1` passes: more change nothing. Derived. -/
def Obligations.LoopPassesSuffice : Prop :=
  ∀ (c : Config) (w : Bytes) (more : Nat), decodeLoop c w (w.length + 1 + more) 0 [] = decodeLoop c w (w.length + 1) 0 []

/-- R211: what PB can hold after an invocation and after reset. -/
def Obligations.PendingBufferShape : Prop :=
  (∀ (c : Config) (pb chunk : Bytes),
    ((decodeChunk c pb chunk).2 = [] ∨
      ∃ i, readByte (pb ++ chunk) i = some 0x01 ∧ assemble c (pb ++ chunk) i = .incomplete ∧
        (decodeChunk c pb chunk).2 = (pb ++ chunk).drop i) ∧
    ((decodeChunk c pb chunk).2 = [] ∨ (decodeChunk c pb chunk).2 = [0x01] ∨
      ∃ (len : Byte) (q : Bytes), (decodeChunk c pb chunk).2 = 0x01 :: len :: q ∧
        3 ≤ len.toNat ∧ len.toNat ≤ c.maxLen ∧ q.length < len.toNat) ∧
    (decodeChunk c pb chunk).2.length ≤ 1 + c.maxLen) ∧
  (∀ s t : State, s.resetSession = .next t → t.pb = [])

/-- R212: splitting a byte sequence into chunks changes neither the items nor the final PB. -/
def Obligations.FragmentationInvariance : Prop :=
  ∀ (c : Config) (chunks : List Bytes), decodeChunks c [] chunks = decodeChunk c [] chunks.flatten

/-- R213: noise between frames, and before the first, changes neither the items nor the final PB. -/
def Obligations.NoiseInvariance : Prop :=
  ∀ (c : Config) (parts : List (Bytes × Bytes)) (last : Bytes),
    (∀ p ∈ parts, isNoise p.1 = true ∧ wholeFrame c p.2 = true) → isNoise last = true →
    decodeChunk c [] (parts.flatMap (fun p => p.1 ++ p.2) ++ last) = decodeChunk c [] (parts.flatMap (fun p => p.2))

/-- R214: the byte-serial form, byte by byte; and run over the bytes of a chunk from the state that stands for PB,
it gives the same items and final PB. -/
def Obligations.SerialFormAgrees : Prop :=
  (∀ c : Config, feed c .hunt 0x06 = ([.ctl .ack], .hunt) ∧ feed c .hunt 0x15 = ([.ctl .nak], .hunt) ∧
    feed c .hunt 0x18 = ([.ctl .can], .hunt) ∧ feed c .hunt 0x01 = ([], .gotSof) ∧
    ∀ b, isMarker b = false → feed c .hunt b = ([], .hunt)) ∧
  (∀ (c : Config) (b : Byte),
    (b.toNat < 3 ∨ c.maxLen < b.toNat →
      feed c .gotSof b = (.diag 0x02 (.badLength b) :: (feed c .hunt b).1, (feed c .hunt b).2)) ∧
    (3 ≤ b.toNat → b.toNat ≤ c.maxLen → feed c .gotSof b = ([], .body b []))) ∧
  (∀ (c : Config) (len b : Byte) (q : Bytes),
    (q.length + 1 < len.toNat → feed c (.body len q) b = ([], .body len (q ++ [b]))) ∧
    (3 ≤ len.toNat → len.toNat ≤ c.maxLen → q.length + 1 = len.toNat →
      feed c (.body len q) b = ((decodeChunk c [] (0x01 :: len :: (q ++ [b]))).1, .hunt))) ∧
  (∀ (c : Config) (pb chunk : Bytes), pendingOk c pb = true →
    (serialOf pb).toPending = pb ∧
    (feedAll c (serialOf pb) chunk).1 = (decodeChunk c pb chunk).1 ∧
    (feedAll c (serialOf pb) chunk).2.toPending = (decodeChunk c pb chunk).2)

/-- R215: an empty chunk changes nothing. -/
def Obligations.EmptyChunkChangesNothing : Prop :=
  ∀ (c : Config) (pb : Bytes), pendingOk c pb = true → decodeChunk c pb [] = ([], pb)

/-- A kept partial frame waits, with no item, until all its bytes have arrived. Derived. -/
def Obligations.KeptFrameWaits : Prop :=
  ∀ (c : Config) (len : Byte) (q chunk : Bytes), 3 ≤ len.toNat → len.toNat ≤ c.maxLen →
    q.length + chunk.length < len.toNat →
    decodeChunk c (0x01 :: len :: q) chunk = ([], 0x01 :: len :: q ++ chunk)

/-- R242: a checksum mismatch discards the whole frame with its diagnostic, and the scan resumes after it. The bytes
`before` the SOF are any that leave nothing pending. -/
def Obligations.ChecksumMismatchResumesAfterFrame : Prop :=
  ∀ (c : Config) (len d f cks : Byte) (p before rest : Bytes), (decodeChunk c [] before).2 = [] →
    3 ≤ len.toNat → len.toNat ≤ c.maxLen → p.length + 3 = len.toNat → compute (len :: d :: f :: p) ≠ cks →
    decodeChunk c [] (before ++ 0x01 :: len :: d :: f :: (p ++ cks :: rest)) =
      ((decodeChunk c [] before).1 ++
          .diag 0x01 (.checksumMismatch len cks (compute (len :: d :: f :: p))) :: (decodeChunk c [] rest).1,
        (decodeChunk c [] rest).2)

/-- R243: a bad length consumes the SOF alone, and the scan resumes at the length byte. -/
def Obligations.BadLengthResumesAtLength : Prop :=
  ∀ (c : Config) (len : Byte) (before rest : Bytes), (decodeChunk c [] before).2 = [] →
    len.toNat < 3 ∨ c.maxLen < len.toNat →
    decodeChunk c [] (before ++ 0x01 :: len :: rest) =
      ((decodeChunk c [] before).1 ++ .diag 0x02 (.badLength len) :: (decodeChunk c [] (len :: rest)).1,
        (decodeChunk c [] (len :: rest)).2)

/-- R140, R142 and R244: a valid frame gives exactly one item, a message, or MALFORMED_PAYLOAD exactly when its
payload is shorter than the `n_min` of its rule; the scan resumes after the frame. -/
def Obligations.ValidFrameGivesOneItem : Prop :=
  (∀ (c : Config) (len d f cks : Byte) (p before rest : Bytes), (decodeChunk c [] before).2 = [] →
    3 ≤ len.toNat → len.toNat ≤ c.maxLen → p.length + 3 = len.toNat → compute (len :: d :: f :: p) = cks →
    decodeChunk c [] (before ++ 0x01 :: len :: d :: f :: (p ++ cks :: rest)) =
      ((decodeChunk c [] before).1 ++ (match decodePayload c ⟨d, f, p, len⟩ with
        | .decoded m => .msg m
        | .malformed k => .diag 0x03 (.malformedPayload d f (countByte p.length) (countByte k))) ::
        (decodeChunk c [] rest).1, (decodeChunk c [] rest).2)) ∧
  (∀ (c : Config) (fr : DataFrame) (k : Nat), decodePayload c fr = .malformed k ↔
    k = payloadMinimum c (decodeKey c fr.direction fr.functionCode) ∧ fr.rawPayload.length < k) ∧
  (∀ c : Config, payloadMinimum c .version = 1 ∧ payloadMinimum c .memoryId = 5 ∧ payloadMinimum c .sucNodeId = 1 ∧
    payloadMinimum c .initData = c.initHdrLen + 29 ∧ payloadMinimum c .nodeProtocolInfo = 5 ∧
    payloadMinimum c .sendDataRes = 1 ∧ payloadMinimum c .sendDataReq = 2 ∧ payloadMinimum c .requestNodeInfo = 1 ∧
    payloadMinimum c .applicationUpdate = 2 ∧ payloadMinimum c .routingInfo = 29 ∧
    payloadMinimum c .applicationCommand = (if c.appcmdHasLen then 4 else 3) ∧
    ∀ d f, payloadMinimum c (.opaqueKey d f) = 0)
end

