-- ==== Sys2Proof/Laws/State.lean ====
section
/-! SUPPORT. One lemma per field per update of the state and of the invocation, true by rfl, so that no
proof unfolds a record update. -/

namespace Sys2Proof.Machine

section InvocationUpdates

variable (v : Invocation) (x : Item) (d : DiagInfo) (n : Nat) (f : DataFrame)

@[simp] theorem Invocation.emit_w : (v.emit x).w = v.w := rfl
@[simp] theorem Invocation.emit_cur : (v.emit x).cur = v.cur := rfl
@[simp] theorem Invocation.emit_out : (v.emit x).out = v.out ++ [x] := rfl
@[simp] theorem Invocation.emit_frame : (v.emit x).frame = v.frame := rfl

@[simp] theorem Invocation.raise_w : (v.raise d).w = v.w := rfl
@[simp] theorem Invocation.raise_cur : (v.raise d).cur = v.cur := rfl
@[simp] theorem Invocation.raise_out : (v.raise d).out = v.out ++ [diagItem d] := rfl
@[simp] theorem Invocation.raise_frame : (v.raise d).frame = v.frame := rfl

@[simp] theorem Invocation.consume_w : (v.consume n).w = v.w := rfl
@[simp] theorem Invocation.consume_cur : (v.consume n).cur = v.cur + n := rfl
@[simp] theorem Invocation.consume_out : (v.consume n).out = v.out := rfl
@[simp] theorem Invocation.consume_frame : (v.consume n).frame = v.frame := rfl

@[simp] theorem Invocation.hand_w : (v.hand f).w = v.w := rfl
@[simp] theorem Invocation.hand_cur : (v.hand f).cur = v.cur := rfl
@[simp] theorem Invocation.hand_out : (v.hand f).out = v.out := rfl
@[simp] theorem Invocation.hand_frame : (v.hand f).frame = some f := rfl

@[simp] theorem Invocation.release_w : v.release.w = v.w := rfl
@[simp] theorem Invocation.release_cur : v.release.cur = v.cur := rfl
@[simp] theorem Invocation.release_out : v.release.out = v.out := rfl
@[simp] theorem Invocation.release_frame : v.release.frame = none := rfl

end InvocationUpdates

section Start

variable (pb chunk : Bytes)

@[simp] theorem startInvocation_w : (startInvocation pb chunk).w = pb ++ chunk := rfl
@[simp] theorem startInvocation_cur : (startInvocation pb chunk).cur = 0 := rfl
@[simp] theorem startInvocation_out : (startInvocation pb chunk).out = [] := rfl
@[simp] theorem startInvocation_frame : (startInvocation pb chunk).frame = none := rfl

end Start

section StateUpdates

variable (s : State) (v : Invocation) (pb : Bytes)

@[simp] theorem State.setInv_cfg : (s.setInv v).cfg = s.cfg := rfl
@[simp] theorem State.setInv_pb : (s.setInv v).pb = s.pb := rfl
@[simp] theorem State.setInv_inv : (s.setInv v).inv = some v := rfl
@[simp] theorem State.setInv_calls : (s.setInv v).calls = s.calls := rfl
@[simp] theorem State.setInv_returned : (s.setInv v).returned = s.returned := rfl

@[simp] theorem State.finish_cfg : (s.finish v pb).cfg = s.cfg := rfl
@[simp] theorem State.finish_pb : (s.finish v pb).pb = pb := rfl
@[simp] theorem State.finish_inv : (s.finish v pb).inv = none := rfl
@[simp] theorem State.finish_calls : (s.finish v pb).calls = s.calls := rfl
@[simp] theorem State.finish_returned : (s.finish v pb).returned = s.returned ++ [v.out] := rfl

end StateUpdates

end Sys2Proof.Machine
end

