-- ==== Sys2Proof/Laws/Ops.lean ====
section
/-! SUPPORT. What the shared operations can do: reads of the working buffer, the fetch, and the context
of a meaning. -/

namespace Sys2Proof.Machine

/-! ### Reads of the working buffer -/

/-- A byte is read exactly at the indices of the buffer (R40). -/
theorem readByte_isSome (w : Bytes) (i : Nat) : (readByte w i).isSome = true ↔ i < w.length := by
  simp [readByte]

theorem readByte_eq_none (w : Bytes) (i : Nat) : readByte w i = none ↔ w.length ≤ i := by
  simp [readByte]

/-- A read past the bytes `before` is a read of what follows them. -/
@[simp] theorem readByte_append_right (before w : Bytes) (i : Nat) :
    readByte (before ++ w) (before.length + i) = readByte w i := by
  rw [readByte, readByte, List.getElem?_append_right (by omega), Nat.add_sub_cancel_left]

/-- A read inside `w` does not see what is appended to it. -/
theorem readByte_append_left (w more : Bytes) (i : Nat) (h : i < w.length) :
    readByte (w ++ more) i = readByte w i := by
  simp [readByte, List.getElem?_append_left h]

/-- The byte read at `i` is the head of the suffix from `i`. -/
theorem drop_of_readByte {w : Bytes} {i : Nat} {b : Byte} (h : readByte w i = some b) :
    w.drop i = b :: w.drop (i + 1) := by
  obtain ⟨hi, rfl⟩ := List.getElem?_eq_some_iff.mp h
  exact List.drop_eq_getElem_cons hi

theorem readByte_drop (w : Bytes) (a i : Nat) : readByte (w.drop a) i = readByte w (a + i) := by
  simp [readByte]

@[simp] theorem memRead_append_right (before w : Bytes) (a n : Nat) :
    memRead (before ++ w) (before.length + a) n = memRead w a n := by
  have h : List.drop (before.length + a) before = [] := List.drop_eq_nil_of_le (by omega)
  simp [memRead, List.drop_append, h]

/-- A slice inside `w` does not see what is appended to it. -/
theorem memRead_append_left (w more : Bytes) (a n : Nat) (h : a + n ≤ w.length) :
    memRead (w ++ more) a n = memRead w a n := by
  simp only [memRead]
  rw [List.drop_append_of_le_length (by omega), List.take_append_of_le_length (by simp; omega)]

/-- A slice inside the buffer has the length asked for (R10). -/
theorem memRead_length (w : Bytes) (a n : Nat) (h : a + n ≤ w.length) : (memRead w a n).length = n := by
  simp [memRead]; omega

/-! ### The context of a meaning, and the fetch -/

@[simp] theorem withInvocation_some {s : State} {v : Invocation} (h : s.inv = some v) (k : Invocation → Answer) :
    s.withInvocation k = k v := by
  simp [State.withInvocation, h]

@[simp] theorem withInvocation_none {s : State} (h : s.inv = none) (k : Invocation → Answer) :
    s.withInvocation k = .fault .noInvocation := by
  simp [State.withInvocation, h]

/-- A meaning that answers a next state had an invocation to act on. -/
theorem withInvocation_next {s t : State} {k : Invocation → Answer} (h : s.withInvocation k = .next t) :
    ∃ v, s.inv = some v ∧ k v = .next t := by
  cases hv : s.inv with
  | none => simp [hv] at h
  | some v => exact ⟨v, rfl, by simpa [hv] using h⟩

/-- With no frame in hand the loop head reads the byte at the cursor; at the end there is none (R202, R203). -/
theorem nextInstr_scan (c : Config) {v : Invocation} (h : v.frame = none) :
    v.nextInstr c = (readByte v.w v.cur).map decodeMarker := by
  cases hb : readByte v.w v.cur with
  | none =>
    have : v.w.drop v.cur = [] := by simpa [readByte_eq_none] using hb
    simp [Invocation.nextInstr, Invocation.level, Invocation.fetchBytes, h, this, decode]
  | some b =>
    simp [Invocation.nextInstr, Invocation.level, Invocation.fetchBytes, h, drop_of_readByte hb, decode]

/-- With a frame in hand the next instruction is that of its key (R140, R141). -/
theorem nextInstr_key (c : Config) {v : Invocation} {f : DataFrame} (h : v.frame = some f) :
    v.nextInstr c = some (decodeKey c f.direction f.functionCode) := by
  simp [Invocation.nextInstr, Invocation.level, Invocation.fetchBytes, h, decode]

end Sys2Proof.Machine
end

