-- ==== Sys2Proof/Laws/Assembler.lean ====
section
/-! SUPPORT. What the assembler and SOF can do: one inversion lemma for each. -/

namespace Sys2Proof.Machine

theorem lenLegal_iff {c : Config} {len : Byte} :
    lenLegal c len = true ↔ 3 ≤ len.toNat ∧ len.toNat ≤ c.maxLen := by
  simp only [lenLegal, Bool.and_eq_true, decide_eq_true_eq]
  exact Iff.rfl

/-- A complete frame of at least three bytes after its length byte is judged by its checksum alone. -/
theorem judgeComplete_cases {w : Bytes} {s : Nat} {len : Byte} (h3 : 3 ≤ len.toNat) (hw : s + 2 + len.toNat ≤ w.length) :
    ∃ d f cks, readByte w (s + 2) = some d ∧ readByte w (s + 3) = some f ∧
      readByte w (s + 1 + len.toNat) = some cks ∧
      ((compute (memRead w (s + 1) len.toNat) = cks ∧
          judgeComplete w s len = .ok ⟨d, f, memRead w (s + 4) (len.toNat - 3), len⟩) ∨
        (compute (memRead w (s + 1) len.toNat) ≠ cks ∧
          judgeComplete w s len = .checksumBad len cks (compute (memRead w (s + 1) len.toNat)))) := by
  obtain ⟨d, hd⟩ := Option.isSome_iff_exists.mp ((readByte_isSome w (s + 2)).mpr (by omega))
  obtain ⟨f, hf⟩ := Option.isSome_iff_exists.mp ((readByte_isSome w (s + 3)).mpr (by omega))
  obtain ⟨k, hk⟩ := Option.isSome_iff_exists.mp ((readByte_isSome w (s + 1 + len.toNat)).mpr (by omega))
  refine ⟨d, f, k, hd, hf, hk, ?_⟩
  by_cases hc : compute (memRead w (s + 1) len.toNat) = k
  · exact .inl ⟨hc, by simp [judgeComplete, hd, hf, hk, validate, hc]⟩
  · exact .inr ⟨hc, by simp [judgeComplete, hd, hf, hk, validate, hc]⟩

/-- What the assembler can answer, in the order of its checks (R246): the length byte is missing, the length
is illegal, the frame is not complete, or it is complete and judged. -/
theorem assemble_cases (c : Config) (w : Bytes) (s : Nat) :
    (w.length ≤ s + 1 ∧ assemble c w s = .incomplete) ∨
    ∃ len, readByte w (s + 1) = some len ∧
      ((lenLegal c len = false ∧ assemble c w s = .badLength len) ∨
       (lenLegal c len = true ∧ w.length < s + 2 + len.toNat ∧ assemble c w s = .incomplete) ∨
       (lenLegal c len = true ∧ s + 2 + len.toNat ≤ w.length ∧ assemble c w s = judgeComplete w s len)) := by
  cases h : readByte w (s + 1) with
  | none => exact .inl ⟨(readByte_eq_none _ _).mp h, by simp [assemble, h]⟩
  | some len =>
    have hs : s + 1 < w.length := (readByte_isSome w (s + 1)).mp (by simp [h])
    refine .inr ⟨len, rfl, ?_⟩
    cases hl : lenLegal c len with
    | false => exact .inl ⟨rfl, by simp [assemble, h, hl]⟩
    | true =>
      by_cases hc : w.length - s < 2 + len.toNat
      · exact .inr (.inl ⟨rfl, by omega, by simp [assemble, h, hl, hc]⟩)
      · exact .inr (.inr ⟨rfl, by omega, by simp [assemble, h, hl, hc]⟩)

/-- What is true of an accepted frame (R124, R126). -/
theorem assemble_ok {c : Config} {w : Bytes} {s : Nat} {f : DataFrame} (h : assemble c w s = .ok f) :
    readByte w (s + 1) = some f.declaredLength ∧ lenLegal c f.declaredLength = true ∧
    s + 2 + f.declaredLength.toNat ≤ w.length ∧
    readByte w (s + 2) = some f.direction ∧ readByte w (s + 3) = some f.functionCode ∧
    f.rawPayload = memRead w (s + 4) (f.declaredLength.toNat - 3) ∧
    readByte w (s + 1 + f.declaredLength.toNat) = some (compute (memRead w (s + 1) f.declaredLength.toNat)) := by
  rcases assemble_cases c w s with ⟨-, h'⟩ | ⟨len, hlen, ⟨-, h'⟩ | ⟨-, -, h'⟩ | ⟨hl, hc, h'⟩⟩
  · simp [h'] at h
  · simp [h'] at h
  · simp [h'] at h
  · rw [h'] at h
    obtain ⟨d, k, cks, hd, hk, hcks, ⟨hx, hj⟩ | ⟨-, hj⟩⟩ := judgeComplete_cases (lenLegal_iff.mp hl).1 hc
    · rw [hj] at h
      cases h
      exact ⟨hlen, hl, hc, hd, hk, rfl, by rw [hcks, hx]⟩
    · simp [hj] at h

/-- What is true of a frame whose checksum failed (R125). -/
theorem assemble_checksumBad {c : Config} {w : Bytes} {s : Nat} {len declared computed : Byte}
    (h : assemble c w s = .checksumBad len declared computed) :
    readByte w (s + 1) = some len ∧ lenLegal c len = true ∧ s + 2 + len.toNat ≤ w.length ∧
    readByte w (s + 1 + len.toNat) = some declared ∧ computed = compute (memRead w (s + 1) len.toNat) ∧
    computed ≠ declared := by
  rcases assemble_cases c w s with ⟨-, h'⟩ | ⟨l, hlen, ⟨-, h'⟩ | ⟨-, -, h'⟩ | ⟨hl, hc, h'⟩⟩
  · simp [h'] at h
  · simp [h'] at h
  · simp [h'] at h
  · rw [h'] at h
    obtain ⟨d, k, cks, hd, hk, hcks, ⟨-, hj⟩ | ⟨hx, hj⟩⟩ := judgeComplete_cases (lenLegal_iff.mp hl).1 hc
    · simp [hj] at h
    · rw [hj] at h
      cases h
      exact ⟨hlen, hl, hc, hcks, rfl, hx⟩

/-- What is true of a bad length (R122). -/
theorem assemble_badLength {c : Config} {w : Bytes} {s : Nat} {len : Byte} (h : assemble c w s = .badLength len) :
    readByte w (s + 1) = some len ∧ lenLegal c len = false := by
  rcases assemble_cases c w s with ⟨-, h'⟩ | ⟨l, hlen, ⟨hl, h'⟩ | ⟨-, -, h'⟩ | ⟨hl, hc, h'⟩⟩
  · simp [h'] at h
  · rw [h'] at h; cases h; exact ⟨hlen, hl⟩
  · simp [h'] at h
  · obtain ⟨d, k, cks, -, -, -, ⟨-, hj⟩ | ⟨-, hj⟩⟩ := judgeComplete_cases (lenLegal_iff.mp hl).1 hc <;>
      simp [h', hj] at h

/-- What is true of an incomplete frame (R72). -/
theorem assemble_incomplete {c : Config} {w : Bytes} {s : Nat} (h : assemble c w s = .incomplete) :
    w.length ≤ s + 1 ∨ ∃ len, readByte w (s + 1) = some len ∧ lenLegal c len = true ∧ w.length < s + 2 + len.toNat := by
  rcases assemble_cases c w s with ⟨hs, -⟩ | ⟨l, hlen, ⟨hl, h'⟩ | ⟨hl, hc, -⟩ | ⟨hl, hc, h'⟩⟩
  · exact .inl hs
  · simp [h'] at h
  · exact .inr ⟨l, hlen, hl, hc⟩
  · obtain ⟨d, k, cks, -, -, -, ⟨-, hj⟩ | ⟨-, hj⟩⟩ := judgeComplete_cases (lenLegal_iff.mp hl).1 hc <;>
      simp [h', hj] at h

/-- What SOF can do when it answers a next state: one case for each outcome of the assembler (R205). -/
theorem execSof_next {s t : State} (h : execSof s = .next t) :
    ∃ v, s.inv = some v ∧
      ((assemble s.cfg v.w v.cur = .incomplete ∧ t = s.finish v (v.w.drop v.cur)) ∨
       (∃ len, assemble s.cfg v.w v.cur = .badLength len ∧ t = s.setInv ((v.raise (.badLength len)).consume 1)) ∨
       (∃ len d k, assemble s.cfg v.w v.cur = .checksumBad len d k ∧
         t = s.setInv ((v.raise (.checksumMismatch len d k)).consume (2 + len.toNat))) ∨
       (∃ f, assemble s.cfg v.w v.cur = .ok f ∧ t = s.setInv (v.hand f))) := by
  obtain ⟨v, hv, h⟩ := withInvocation_next h
  refine ⟨v, hv, ?_⟩
  cases ha : assemble s.cfg v.w v.cur with
  | incomplete => exact .inl ⟨rfl, by simpa [ha] using h.symm⟩
  | badLength len => exact .inr (.inl ⟨len, rfl, by simpa [ha] using h.symm⟩)
  | checksumBad len d k => exact .inr (.inr (.inl ⟨len, d, k, rfl, by simpa [ha] using h.symm⟩))
  | ok f => exact .inr (.inr (.inr ⟨f, rfl, by simpa [ha] using h.symm⟩))

end Sys2Proof.Machine
end

