-- ==== Sys2Proof/Laws/Decode.lean ====
section
/-! SUPPORT. What the decoder can answer, stated once. -/

namespace Sys2Proof

@[simp] theorem markerOf_ack : markerOf 0x06 = some .ack := rfl
@[simp] theorem markerOf_nak : markerOf 0x15 = some .nak := rfl
@[simp] theorem markerOf_can : markerOf 0x18 = some .can := rfl
@[simp] theorem markerOf_sof : markerOf 0x01 = some .sof := rfl

theorem markerOf_eq_ack {b : Byte} : markerOf b = some .ack ↔ b = 0x06 := by
  unfold markerOf; split_ifs <;> simp_all
theorem markerOf_eq_nak {b : Byte} : markerOf b = some .nak ↔ b = 0x15 := by
  unfold markerOf; split_ifs <;> simp_all
theorem markerOf_eq_can {b : Byte} : markerOf b = some .can ↔ b = 0x18 := by
  unfold markerOf; split_ifs <;> simp_all
theorem markerOf_eq_sof {b : Byte} : markerOf b = some .sof ↔ b = 0x01 := by
  unfold markerOf; split_ifs <;> simp_all

/-- The bytes with no kind are those outside the marker set (R110). -/
theorem markerOf_eq_none {b : Byte} : markerOf b = none ↔ isMarker b = false := by
  unfold markerOf isMarker; split_ifs <;> simp_all

/-- What the first-level map can answer, by the kind of the byte. -/
theorem decodeMarker_cases (b : Byte) :
    (b = 0x06 ∧ decodeMarker b = .ack) ∨ (b = 0x15 ∧ decodeMarker b = .nak) ∨
    (b = 0x18 ∧ decodeMarker b = .can) ∨ (b = 0x01 ∧ decodeMarker b = .sof) ∨
    (isMarker b = false ∧ decodeMarker b = .noise b) := by
  unfold decodeMarker
  cases h : markerOf b with
  | none => simp [markerOf_eq_none.mp h]
  | some k =>
    cases k with
    | ack => simp [markerOf_eq_ack.mp h]
    | nak => simp [markerOf_eq_nak.mp h]
    | can => simp [markerOf_eq_can.mp h]
    | sof => simp [markerOf_eq_sof.mp h]

/-- What the second-level map can answer: the instruction of a row of R68 with that very key, or Opaque when
there is no such row. -/
theorem decodeKey_cases (c : Config) (d f : Byte) :
    (∃ r ∈ keyRows c, r.direction = d ∧ r.functionCode = f ∧ decodeKey c d f = r.instr) ∨
    ((∀ r ∈ keyRows c, ¬ (r.direction = d ∧ r.functionCode = f)) ∧ decodeKey c d f = .opaqueKey d f) := by
  unfold decodeKey
  cases h : (keyRows c).find? (fun r => r.direction == d && r.functionCode == f) with
  | none =>
    refine .inr ⟨fun r hr hd => ?_, rfl⟩
    have := List.find?_eq_none.mp h r hr
    simp [hd.1, hd.2] at this
  | some r =>
    have hk := List.find?_some h
    simp only [Bool.and_eq_true, beq_iff_eq] at hk
    exact .inl ⟨r, List.mem_of_find?_eq_some h, hk.1, hk.2, rfl⟩

/-- The instruction of a row of R68 stands at the key level. -/
theorem keyRows_level {c : Config} {r : KeyRow} (h : r ∈ keyRows c) : r.instr.level = .key := by
  simp only [keyRows, List.mem_cons, List.not_mem_nil, or_false] at h
  rcases h with h | h | h | h | h | h | h | h | h | h | h <;> subst h <;> rfl

/-- Whatever a key decodes to stands at the key level. -/
theorem decodeKey_level (c : Config) (d f : Byte) : (decodeKey c d f).level = .key := by
  rcases decodeKey_cases c d f with ⟨r, hr, -, -, h⟩ | ⟨-, h⟩
  · rw [h]; exact keyRows_level hr
  · rw [h]; rfl

/-- Whatever a scan-position byte decodes to stands at the scan level. -/
theorem decodeMarker_level (b : Byte) : (decodeMarker b).level = .scan := by
  rcases decodeMarker_cases b with ⟨-, h⟩ | ⟨-, h⟩ | ⟨-, h⟩ | ⟨-, h⟩ | ⟨-, h⟩ <;> rw [h] <;> rfl

end Sys2Proof
end

