-- ==== Sys2Proof/Laws/Control.lean ====
section
/-! SUPPORT. What the scanner and the control meanings can do. -/

namespace Sys2Proof.Machine

@[simp] theorem scanFrom_nil (i : Nat) : scanFrom [] i = none := rfl

theorem scanFrom_cons_marker {b : Byte} {k : Marker} (h : markerOf b = some k) (rest : Bytes) (i : Nat) :
    scanFrom (b :: rest) i = some (i, k) := by
  simp [scanFrom, h]

theorem scanFrom_cons_noise {b : Byte} (h : markerOf b = none) (rest : Bytes) (i : Nat) :
    scanFrom (b :: rest) i = scanFrom rest (i + 1) := by
  simp [scanFrom, h]

/-- The offset is relative to the index given. -/
theorem scanFrom_add (w : Bytes) (i j : Nat) :
    scanFrom w (i + j) = (scanFrom w i).map (fun r => (r.1 + j, r.2)) := by
  induction w generalizing i with
  | nil => rfl
  | cons b rest ih =>
    cases h : markerOf b with
    | some k => simp [scanFrom_cons_marker h]
    | none => rw [scanFrom_cons_noise h, scanFrom_cons_noise h, ← ih (i + 1)]; congr 1; omega

/-- A scan that starts past the bytes `before` does not see them. -/
theorem scan_append_right (before w : Bytes) (start : Nat) :
    scan (before ++ w) (before.length + start) = (scan w start).map (fun r => (r.1 + before.length, r.2)) := by
  have h : List.drop (before.length + start) before = [] := List.drop_eq_nil_of_le (by omega)
  rw [scan, scan, ← scanFrom_add, List.drop_append, h, List.nil_append, Nat.add_sub_cancel_left, Nat.add_comm start]

/-- What a control meaning does when it answers a next state. -/
theorem execControl_next {k : CtlKind} {s t : State} (h : execControl k s = .next t) :
    ∃ v, s.inv = some v ∧ t = s.setInv ((v.emit (.ctl k)).consume 1) := by
  obtain ⟨v, hv, h⟩ := withInvocation_next h
  exact ⟨v, hv, by simpa using h.symm⟩

/-- What NOISE does when it answers a next state. -/
theorem execNoise_next {b : Byte} {s t : State} (h : execNoise b s = .next t) :
    ∃ v, s.inv = some v ∧ t = s.setInv (v.consume 1) := by
  obtain ⟨v, hv, h⟩ := withInvocation_next h
  exact ⟨v, hv, by simpa using h.symm⟩

end Sys2Proof.Machine
end

