-- ==== Sys2Proof/Laws/Payload.lean ====
section
/-! SUPPORT. What every payload decoder can do, stated once. -/

namespace Sys2Proof.Machine

/-- What a key-level instruction does when it answers a next state. -/
theorem execPayload_next {rule : Bytes → PayloadResult} {s t : State} (h : execPayload rule s = .next t) :
    ∃ v f, s.inv = some v ∧ v.frame = some f ∧
      t = s.setInv (((v.emit (payloadItem f (rule f.rawPayload))).consume (2 + f.declaredLength.toNat)).release) := by
  obtain ⟨v, hv, h⟩ := withInvocation_next h
  cases hf : v.frame with
  | none => simp [hf] at h
  | some f => exact ⟨v, f, hv, hf, by simpa [hf] using h.symm⟩

/-- A key-level instruction answers a next state wherever it has an invocation and a frame. -/
theorem execPayload_eq {s : State} {v : Invocation} {f : DataFrame} (hv : s.inv = some v) (hf : v.frame = some f)
    (rule : Bytes → PayloadResult) :
    execPayload rule s =
      .next (s.setInv (((v.emit (payloadItem f (rule f.rawPayload))).consume (2 + f.declaredLength.toNat)).release)) := by
  simp [execPayload, hv, hf]

/-- The meaning of every key-level instruction is its rule under the shared operation. -/
theorem exec_key {i : Instr} (h : i.level = .key) (s : State) :
    ∃ rule : Bytes → PayloadResult, exec i s = execPayload rule s := by
  cases i <;> first | (simp [Instr.level] at h; done) | exact ⟨_, rfl⟩

/-- The instruction a frame's key decodes to does, on that frame, what `decodePayload` says (R140). -/
theorem exec_decodeKey {s : State} {v : Invocation} {f : DataFrame} (hv : s.inv = some v) (hf : v.frame = some f) :
    exec (decodeKey s.cfg f.direction f.functionCode) s =
      .next (s.setInv (((v.emit (payloadItem f (decodePayload s.cfg f))).consume
        (2 + f.declaredLength.toNat)).release)) := by
  have key := decodeKey_level s.cfg f.direction f.functionCode
  have opq : ∀ d k, decodeKey s.cfg f.direction f.functionCode = .opaqueKey d k → d = f.direction ∧ k = f.functionCode := by
    intro d k h
    rcases decodeKey_cases s.cfg f.direction f.functionCode with ⟨r, hr, -, -, hi⟩ | ⟨-, hi⟩
    · rw [hi] at h
      simp only [keyRows, List.mem_cons, List.not_mem_nil, or_false] at hr
      rcases hr with e | e | e | e | e | e | e | e | e | e | e <;> subst e <;> cases h
    · rw [hi] at h; cases h; exact ⟨rfl, rfl⟩
  unfold decodePayload
  cases hi : decodeKey s.cfg f.direction f.functionCode with
  | opaqueKey d k => obtain ⟨rfl, rfl⟩ := opq d k hi; exact execPayload_eq hv hf _
  | ack => simp [hi, Instr.level] at key
  | nak => simp [hi, Instr.level] at key
  | can => simp [hi, Instr.level] at key
  | sof => simp [hi, Instr.level] at key
  | noise b => simp [hi, Instr.level] at key
  | _ => exact execPayload_eq hv hf _

end Sys2Proof.Machine
end

