-- ==== Sys2Proof/Laws/PerInstr.lean ====
section
/-! SUPPORT. Statements for all instructions, one lemma per constructor. -/

/-- The width of an instruction's own word in spec/opcode_table.json, in bytes: one at a scan position, two
for a dispatch key. -/
def Sys2Proof.FetchLevel.wordBytes : Sys2Proof.FetchLevel → Nat
  | .scan => 1
  | .key => 2

namespace Sys2Proof.Laws.EncodedWidth

/-- The encoding of an instruction has the width of its level, whatever the configuration and the fields. -/
def Statement (i : Instr) : Prop := ∀ c : Config, (encode c i).length = i.level.wordBytes

theorem ack : Statement .ack := fun _ => rfl
theorem nak : Statement .nak := fun _ => rfl
theorem can : Statement .can := fun _ => rfl
theorem sof : Statement .sof := fun _ => rfl
theorem noise (byte : Byte) : Statement (.noise byte) := fun _ => rfl
theorem version : Statement .version := fun _ => rfl
theorem memoryId : Statement .memoryId := fun _ => rfl
theorem sucNodeId : Statement .sucNodeId := fun _ => rfl
theorem initData : Statement .initData := fun _ => rfl
theorem nodeProtocolInfo : Statement .nodeProtocolInfo := fun _ => rfl
theorem sendDataRes : Statement .sendDataRes := fun _ => rfl
theorem sendDataReq : Statement .sendDataReq := fun _ => rfl
theorem requestNodeInfo : Statement .requestNodeInfo := fun _ => rfl
theorem applicationUpdate : Statement .applicationUpdate := fun _ => rfl
theorem routingInfo : Statement .routingInfo := fun _ => rfl
theorem applicationCommand : Statement .applicationCommand := fun _ => rfl
theorem opaqueKey (direction functionCode : Byte) : Statement (.opaqueKey direction functionCode) := fun _ => rfl

end Sys2Proof.Laws.EncodedWidth
end

