-- ==== Sys2Proof/Laws/Step.lean ====
section
/-! SUPPORT. What one step can do, stated once: every later proof about `step` starts here. -/

namespace Sys2Proof.Machine

/-- What a step can do between invocations. -/
theorem stepIdle_cases {s : State} (hv : s.inv = none) :
    (s.calls = [] ∧ stepIdle s = .next s) ∨
    (∃ chunk rest, s.calls = .decode chunk :: rest ∧
      stepIdle s = .next ({ s with calls := rest }.setInv (startInvocation s.pb chunk))) ∨
    (∃ rest, s.calls = .reset :: rest ∧ stepIdle s = .next { s with calls := rest, pb := [] }) := by
  cases hc : s.calls with
  | nil => exact .inl ⟨rfl, by simp [stepIdle, hc]⟩
  | cons call rest =>
    cases call with
    | decode chunk =>
      exact .inr (.inl ⟨chunk, rest, rfl, by simp [stepIdle, hc, State.perform, State.invoke, hv]⟩)
    | reset => exact .inr (.inr ⟨rest, rfl, by simp [stepIdle, hc, State.perform, State.resetSession, hv]⟩)

/-- What a step can do, in every state: refuse a bad configuration, act between invocations, decode the frame
in hand, end the invocation at the end of the buffer, or run the byte at the cursor. -/
theorem step_cases (s : State) :
    (s.cfg.ok = false ∧ step s = .refused .badConfiguration) ∨
    (s.cfg.ok = true ∧ s.inv = none ∧ step s = stepIdle s) ∨
    (∃ v f, s.cfg.ok = true ∧ s.inv = some v ∧ v.frame = some f ∧
      step s = .next (s.setInv (((v.emit (payloadItem f (decodePayload s.cfg f))).consume
        (2 + f.declaredLength.toNat)).release))) ∨
    (∃ v, s.cfg.ok = true ∧ s.inv = some v ∧ v.frame = none ∧ v.w.length ≤ v.cur ∧
      step s = .next (s.finish v [])) ∨
    (∃ v b, s.cfg.ok = true ∧ s.inv = some v ∧ v.frame = none ∧ readByte v.w v.cur = some b ∧
      step s = exec (decodeMarker b) s) := by
  cases hok : s.cfg.ok with
  | false => exact .inl ⟨rfl, by simp [step, hok]⟩
  | true =>
    cases hv : s.inv with
    | none => exact .inr (.inl ⟨rfl, rfl, by simp [step, hok, hv]⟩)
    | some v =>
      refine .inr (.inr ?_)
      cases hf : v.frame with
      | some f =>
        exact .inl ⟨v, f, rfl, rfl, hf, by simp [step, hok, hv, nextInstr_key s.cfg hf, exec_decodeKey hv hf]⟩
      | none =>
        cases hb : readByte v.w v.cur with
        | none =>
          exact .inr (.inl ⟨v, rfl, rfl, hf, (readByte_eq_none _ _).mp hb,
            by simp [step, hok, hv, nextInstr_scan s.cfg hf, hb]⟩)
        | some b =>
          exact .inr (.inr ⟨v, b, rfl, rfl, hf, hb, by simp [step, hok, hv, nextInstr_scan s.cfg hf, hb]⟩)

end Sys2Proof.Machine
end

