-- ==== Sys2Proof/Laws/Run.lean ====
section
/-! SUPPORT. The run of steps one step at a time, and the loop of R208: where its scan can land, and its
output as an accumulator. -/

namespace Sys2Proof.Machine

@[simp] theorem runSteps_zero (s : State) : runSteps 0 s = .next s := rfl

/-- A run whose first step answers `t` goes on from `t`. -/
theorem runSteps_succ {s t : State} (h : step s = .next t) (k : Nat) : runSteps (k + 1) s = runSteps k t := by
  have h' : Sys2Proof.core.step s = .next t := h
  simp only [runSteps, Host.Core.run, h']
  rfl

/-- Two runs in a row are one run. -/
theorem runSteps_add {s t : State} (j k : Nat) (h : runSteps j s = .next t) : runSteps (j + k) s = runSteps k t := by
  induction j generalizing s with
  | zero => cases h; rw [Nat.zero_add]
  | succ j ih =>
    cases hs : step s with
    | next u =>
      rw [runSteps_succ hs] at h
      rw [Nat.succ_add, runSteps_succ hs, ih h]
    | fault r =>
      have hs' : Sys2Proof.core.step s = .fault r := hs
      simp [runSteps, Host.Core.run, hs'] at h
    | refused r =>
      have hs' : Sys2Proof.core.step s = .refused r := hs
      simp [runSteps, Host.Core.run, hs'] at h

/-- A marker is found inside the bytes scanned. -/
theorem scanFrom_bounds {w : Bytes} {i j : Nat} {k : Marker} (h : scanFrom w i = some (j, k)) :
    i ≤ j ∧ j < i + w.length := by
  induction w generalizing i with
  | nil => simp at h
  | cons b rest ih =>
    cases hm : markerOf b with
    | some k' =>
      rw [scanFrom_cons_marker hm] at h
      cases h
      simp
    | none =>
      rw [scanFrom_cons_noise hm] at h
      have := ih h
      simp only [List.length_cons]
      omega

/-- `scan` answers an index of the buffer, not before `start`. -/
theorem scan_bounds {w : Bytes} {start j : Nat} {k : Marker} (h : scan w start = some (j, k)) :
    start ≤ j ∧ j < w.length := by
  have := scanFrom_bounds h
  simp only [List.length_drop] at this
  omega

/-- The items so far are only carried: the loop appends to them. -/
theorem decodeLoop_out (c : Config) (w : Bytes) (passes cur : Nat) (out : List Item) :
    decodeLoop c w passes cur out =
      (out ++ (decodeLoop c w passes cur []).1, (decodeLoop c w passes cur []).2) := by
  induction passes generalizing cur out with
  | zero => simp [decodeLoop]
  | succ n ih =>
    simp only [decodeLoop]
    split
    · simp
    · rw [ih _ (out ++ _), ih _ ([] ++ _)]; simp
    · rw [ih _ (out ++ _), ih _ ([] ++ _)]; simp
    · rw [ih _ (out ++ _), ih _ ([] ++ _)]; simp
    · split
      · simp
      · rw [ih _ (out ++ _), ih _ ([] ++ _)]; simp
      · rw [ih _ (out ++ _), ih _ ([] ++ _)]; simp
      · rw [ih _ (out ++ _), ih _ ([] ++ _)]; simp

end Sys2Proof.Machine
end

