-- ==== Sys2Proof/Tests/Slice0.lean ====
section
/-! SUPPORT. The model's own tests. Expected values are the vectors of spec/95_test_vectors.md (named in the
comments) or read off the rule named. The last part holds one witness for every statement with hypotheses: a
concrete state and operands that meet all of them. -/

namespace Sys2Proof.Tests

open Sys2Proof Sys2Proof.Machine

/-! ### Helpers -/

/-- A session with the working buffer `w` and the cursor at `cur`. -/
def scanning (w : Bytes) (cur : Nat) : State :=
  State.reset.setInv { w := w, cur := cur, out := [], frame := none }

/-- The frame that `frameBytes` writes. -/
def frameOf (d f : Byte) (p : Bytes) : DataFrame :=
  { direction := d, functionCode := f, rawPayload := p, declaredLength := BitVec.ofNat 8 (p.length + 3) }

/-- An invocation whose one frame the assembler has accepted. -/
def held (d f : Byte) (p : Bytes) : Invocation := (startInvocation [] (frameBytes d f p)).hand (frameOf d f p)

/-- A session in that invocation. -/
def holding (d f : Byte) (p : Bytes) : State := State.reset.setInv (held d f p)

/-- The items and the cursor of the invocation in progress after an answer. -/
def seen : Answer → Option (List Item × Nat)
  | .next t => t.inv.map (fun v => (v.out, v.cur))
  | .fault _ => none
  | .refused _ => none

/-- The PendingBuffer and what was returned after an answer that ended the invocation. -/
def ended : Answer → Option (Bytes × List (List Item))
  | .next t => if t.inv = none then some (t.pb, t.returned) else none
  | .fault _ => none
  | .refused _ => none

/-- `n` bytes 0x00. -/
def zeros (n : Nat) : Bytes := List.replicate n 0x00

/-! ### WellFormed: each check refuses an ill-formed term -/

-- R8(a): 15 and 256 are outside 16 to 255.
theorem test_wf_maxLen_low : Config.ok { Config.default with maxLen := 15 } = false := by decide
theorem test_wf_maxLen_high : Config.ok { Config.default with maxLen := 256 } = false := by decide
-- R8(b): two Response codes alike. R8(c): two Request codes alike.
theorem test_wf_response_codes : Config.ok { Config.default with fcMemoryGetId := 0x15 } = false := by decide
theorem test_wf_request_codes : Config.ok { Config.default with fcApplicationUpdate := 0x13 } = false := by decide
-- R8(d): the listening bit inside the tier field, inside the version field; the fields overlap; two bits alike.
theorem test_wf_listening_in_tier : Config.ok { Config.default with npiListeningBit := 5 } = false := by decide
theorem test_wf_listening_in_version : Config.ok { Config.default with npiListeningBit := 2 } = false := by decide
theorem test_wf_fields_overlap : Config.ok { Config.default with npiTierLo := 2 } = false := by decide
theorem test_wf_bits_alike : Config.ok { Config.default with npiRoutingBit := 4 } = false := by decide
-- R8(e): a width of 0; a field past bit 7; a bit past 7.
theorem test_wf_width_zero : Config.ok { Config.default with npiVerW := 0 } = false := by decide
theorem test_wf_field_past_seven :
    Config.ok { Config.default with npiTierLo := 7, npiListeningBit := 6 } = false := by decide
theorem test_wf_bit_past_seven : Config.ok { Config.default with npiSecurityBit := 8 } = false := by decide
theorem test_wf_default : Config.default.ok = true := by decide
-- R67, R68: a noise byte that is a marker; an opaque key that is a message key, and one that is not.
theorem test_wf_noise_marker : (Instr.noise 0x06).wf Config.default = false := by decide
theorem test_wf_opaque_message_key : (Instr.opaqueKey 0x00 0x13).wf Config.default = false := by decide
theorem test_wf_opaque_other_direction : (Instr.opaqueKey 0x00 0x15).wf Config.default = true := by decide
-- R75, R76: BYTE with no byte, FRAME with 253 payload bytes, a text that is not ASCII.
theorem test_wf_bytes_empty : (StreamElem.bytes []).wf = false := by decide
theorem test_wf_frame_too_long : (StreamElem.frame 0x01 0x15 (List.replicate 253 (.hex 0x00))).wf = false := by
  decide +kernel
theorem test_wf_text_not_ascii : (StreamElem.frame 0x01 0x15 [.text ['é']]).wf = false := by decide

/-! ### Decoding: every row's word, bit by bit from spec/opcode_table.json and R67, R68 -/

theorem test_decode_ack : decode Config.default .scan [0b00000110, 0xAA] = .ok (.ack, [0xAA]) := rfl
theorem test_decode_nak : decode Config.default .scan [0b00010101] = .ok (.nak, []) := rfl
theorem test_decode_can : decode Config.default .scan [0b00011000] = .ok (.can, []) := rfl
theorem test_decode_sof : decode Config.default .scan [0b00000001, 0x03] = .ok (.sof, [0x03]) := rfl
theorem test_decode_noise : decode Config.default .scan [0b00110011] = .ok (.noise 0x33, []) := rfl
theorem test_decode_version :
    decode Config.default .key [0b00000001, 0b00010101] = .ok (.version, []) := rfl
theorem test_decode_memoryId :
    decode Config.default .key [0b00000001, 0b00100000] = .ok (.memoryId, []) := rfl
theorem test_decode_sucNodeId :
    decode Config.default .key [0b00000001, 0b01010110] = .ok (.sucNodeId, []) := rfl
theorem test_decode_initData :
    decode Config.default .key [0b00000001, 0b00000010] = .ok (.initData, []) := rfl
theorem test_decode_nodeProtocolInfo :
    decode Config.default .key [0b00000001, 0b01000001] = .ok (.nodeProtocolInfo, []) := rfl
theorem test_decode_sendDataRes :
    decode Config.default .key [0b00000001, 0b00010011] = .ok (.sendDataRes, []) := rfl
theorem test_decode_sendDataReq :
    decode Config.default .key [0b00000000, 0b00010011] = .ok (.sendDataReq, []) := rfl
theorem test_decode_requestNodeInfo :
    decode Config.default .key [0b00000001, 0b01100000] = .ok (.requestNodeInfo, []) := rfl
theorem test_decode_applicationUpdate :
    decode Config.default .key [0b00000000, 0b01001001] = .ok (.applicationUpdate, []) := rfl
theorem test_decode_routingInfo :
    decode Config.default .key [0b00000001, 0b10000000] = .ok (.routingInfo, []) := rfl
theorem test_decode_applicationCommand :
    decode Config.default .key [0b00000000, 0b00000100] = .ok (.applicationCommand, []) := rfl
-- P-OP2: the Version code under direction 0x02 is no row.
theorem test_decode_opaque :
    decode Config.default .key [0b00000010, 0b00010101] = .ok (.opaqueKey 0x02 0x15, []) := rfl
theorem test_decode_no_byte : decode Config.default .scan [] = .error .noByte := rfl
theorem test_decode_short_key : decode Config.default .key [0x01] = .error .shortKey := rfl

/-! ### One step of each instruction -/

-- S1, S2, S3 behind a byte already consumed.
theorem test_ack : seen (step (scanning [0x33, 0x06] 1)) = some ([.ctl .ack], 2) := by decide
theorem test_nak : seen (step (scanning [0x33, 0x15] 1)) = some ([.ctl .nak], 2) := by decide
theorem test_can : seen (step (scanning [0x18, 0x18] 1)) = some ([.ctl .can], 2) := by decide
-- S4.
theorem test_noise : seen (step (scanning [0x00, 0xFF, 0x33] 1)) = some ([], 2) := by decide
-- A3: the length byte 0x01 is illegal, and is not consumed.
theorem test_sof_badLength :
    seen (step (scanning [0x01, 0x01] 0)) = some ([.diag 0x02 (.badLength 0x01)], 1) := by decide
-- A9: a mismatch consumes the whole frame, and leaves the byte after it.
theorem test_sof_checksum :
    seen (step (scanning [0x01, 0x04, 0x01, 0x13, 0x01, 0xE9, 0x06] 0)) =
      some ([.diag 0x01 (.checksumMismatch 0x04 0xE9 0xE8)], 6) := by decide
-- S8: the noise before the SOF is not kept.
theorem test_sof_incomplete : ended (step (scanning [0x55, 0x01] 1)) = some ([0x01], [[]]) := by decide
-- P-VER1, A5.
theorem test_version : seen (step (holding 0x01 0x15 [0x07])) = some ([.msg (.version [] 0x07)], 6) := by decide
theorem test_version_short :
    seen (step (holding 0x01 0x15 [])) = some ([.diag 0x03 (.malformedPayload 0x01 0x15 0 1)], 5) := by decide
-- P-MEM1, P-MEM5.
theorem test_memoryId :
    seen (step (holding 0x01 0x20 [0xC0, 0xFF, 0xEE, 0x01, 0x01])) =
      some ([.msg (.memoryId (-1056969215) 0x01)], 10) := by decide
theorem test_memoryId_short :
    seen (step (holding 0x01 0x20 [0xC0, 0xFF, 0xEE, 0x01])) =
      some ([.diag 0x03 (.malformedPayload 0x01 0x20 4 5)], 9) := by decide
-- P-SUC1, P-SUC2.
theorem test_sucNodeId : seen (step (holding 0x01 0x56 [0x05])) = some ([.msg (.sucNodeId 0x05 true)], 6) := by
  decide
theorem test_sucNodeId_none : seen (step (holding 0x01 0x56 [0x00])) = some ([.msg (.sucNodeId 0x00 false)], 6) := by
  decide
-- P-INIT1 (two bytes trail the mask), P-INIT3.
theorem test_initData :
    seen (step (holding 0x01 0x02 ([0x05, 0x08, 0x1D, 0x03] ++ zeros 27 ++ [0x80, 0x05, 0x00]))) =
      some ([.msg (.initData [0x05, 0x08, 0x1D] [1, 2, 232])], 39) := by decide +kernel
theorem test_initData_short :
    seen (step (holding 0x01 0x02 ([0x05, 0x08, 0x1D] ++ zeros 28))) =
      some ([.diag 0x03 (.malformedPayload 0x01 0x02 31 32)], 36) := by decide +kernel
-- P-NPI1 (a byte between the capability bytes and the codes), P-NPI3 (tier 2 has no rate).
theorem test_nodeProtocolInfo :
    seen (step (holding 0x01 0x41 [0x93, 0x19, 0x00, 0x04, 0x10, 0x01])) =
      some ([.msg (.nodeProtocolInfo ⟨0x93, 0x19, true, 1, some 40000, 3, true, true, true, 0x04, 0x10, 0x01⟩)], 11) := by
  decide
theorem test_nodeProtocolInfo_no_rate :
    seen (step (holding 0x01 0x41 [0x20, 0x00, 0x02, 0x03, 0x04])) =
      some ([.msg (.nodeProtocolInfo ⟨0x20, 0x00, false, 2, none, 0, false, false, false, 0x02, 0x03, 0x04⟩)], 10) := by
  decide
-- W4, P-SDR2; W5, P-SDQ2.
theorem test_sendDataRes :
    seen (step (holding 0x01 0x13 [0x01])) = some ([.msg (.sendData ⟨true, some 0x01, false, none, none⟩)], 6) := by
  decide
theorem test_sendDataRes_short :
    seen (step (holding 0x01 0x13 [])) = some ([.diag 0x03 (.malformedPayload 0x01 0x13 0 1)], 5) := by decide
theorem test_sendDataReq :
    seen (step (holding 0x00 0x13 [0x02, 0x00])) =
      some ([.msg (.sendData ⟨false, none, true, some 0x02, some 0x00⟩)], 7) := by decide
theorem test_sendDataReq_short :
    seen (step (holding 0x00 0x13 [0x02])) = some ([.diag 0x03 (.malformedPayload 0x00 0x13 1 2)], 6) := by decide
-- P-RNI1, P-RNI3.
theorem test_requestNodeInfo :
    seen (step (holding 0x01 0x60 [0x01])) = some ([.msg (.requestNodeInfo 0x01 true)], 6) := by decide
theorem test_requestNodeInfo_other :
    seen (step (holding 0x01 0x60 [0x02])) = some ([.msg (.requestNodeInfo 0x02 false)], 6) := by decide
-- P-AU1, P-AU3.
theorem test_applicationUpdate :
    seen (step (holding 0x00 0x49 [0x84, 0x05, 0x03, 0x04, 0x10, 0x01])) =
      some ([.msg (.applicationUpdate 0x84 0x05 [0x03, 0x04, 0x10, 0x01])], 11) := by decide
theorem test_applicationUpdate_short :
    seen (step (holding 0x00 0x49 [0x84])) = some ([.diag 0x03 (.malformedPayload 0x00 0x49 1 2)], 6) := by decide
-- P-RI1 (W7), P-RI3.
theorem test_routingInfo :
    seen (step (holding 0x01 0x80 (0x02 :: zeros 28))) = some ([.msg (.routingInfo [2])], 34) := by decide +kernel
theorem test_routingInfo_short :
    seen (step (holding 0x01 0x80 (0x02 :: zeros 27))) =
      some ([.diag 0x03 (.malformedPayload 0x01 0x80 28 29)], 33) := by decide +kernel
-- P-AC1; P-AC4 with APPCMD_HAS_LEN true.
theorem test_applicationCommand :
    seen (step (holding 0x00 0x04 [0x00, 0x07, 0x20, 0x03, 0xFF])) =
      some ([.msg (.applicationCommand 0x00 0x07 none 0x20 [0x03, 0xFF])], 10) := by decide
theorem test_applicationCommand_with_len :
    seen (step { holding 0x00 0x04 [0x00, 0x07, 0x02, 0x20, 0x03] with cfg := { Config.default with appcmdHasLen := true } }) =
      some ([.msg (.applicationCommand 0x00 0x07 (some 0x02) 0x20 [0x03])], 10) := by decide
-- P-OP3, A6.
theorem test_opaque :
    seen (step (holding 0x00 0x15 [0x01])) = some ([.msg (.opaqueFrame 0x00 0x15 [0x01])], 6) := by decide
theorem test_opaque_empty :
    seen (step (holding 0x01 0x99 [])) = some ([.msg (.opaqueFrame 0x01 0x99 [])], 5) := by decide

/-! ### The units and the notation -/

-- K3, K5.
theorem test_compute : compute [0x03, 0x01, 0x15] = 0xE8 ∧ compute [0x05, 0x00, 0x13, 0x02, 0x00] = 0xEB := by decide
-- R145.
theorem test_bits : flag 0x93 6 = false ∧ field 0x20 4 2 = 2 ∧ field 0xFF 0 8 = 255 := by decide
-- A4 as one call; O3, its last byte serially.
theorem test_decodeChunk :
    decodeChunk Config.default [] [0x01, 0x02, 0x06] = ([.diag 0x02 (.badLength 0x02), .ctl .ack], []) := by decide
theorem test_feed : feed Config.default .gotSof 0x02 = ([.diag 0x02 (.badLength 0x02)], .hunt) := by decide
-- W2: the frame of R76 with a text, and its checksum 0x9B.
theorem test_expand_text :
    (StreamElem.frame 0x01 0x15
      [.text ['Z', '-', 'W', 'a', 'v', 'e', ' ', '2', '.', '7', '8', '\x00'], .hex 0x01]).expand =
      [0x01, 0x10, 0x01, 0x15, 0x5A, 0x2D, 0x57, 0x61, 0x76, 0x65, 0x20, 0x32, 0x2E, 0x37, 0x38, 0x00, 0x01, 0x9B] := by
  decide
-- Program 2, its first element: a frame with a wrong checksum, written raw.
theorem test_expand_raw :
    (StreamElem.rawFrame 0x04 0x01 0x13 [.hex 0x01] 0xE9).expand = [0x01, 0x04, 0x01, 0x13, 0x01, 0xE9] := by decide
-- R274, R273: an overlapping call, a changed configuration.
theorem test_overlap : (scanning [0x06] 0).invoke [] = .refused .overlappingCall := rfl
theorem test_configure : State.reset.configure { Config.default with maxLen := 16 } = .refused .configurationFixed := rfl
-- U7: the response form has no callback id.
theorem test_absent_field : (sendDataResponse 0x01).readCallbackId = .fault .absentField := rfl

/-! ### Witnesses: the hypotheses of each statement, met -/

theorem witness_DecodeEncodeAgree : Config.default.ok = true ∧ (Instr.noise 0x33).wf Config.default = true ∧
    (Instr.opaqueKey 0x02 0x15).wf Config.default = true ∧ Instr.version.wf Config.default = true := by decide

theorem witness_DecodedBytesAreItsEncoding :
    decode Config.default .scan [0x02, 0x03] = .ok (.noise 0x02, [0x03]) ∧
    decode Config.default .key [0x00, 0x04, 0x07] = .ok (.applicationCommand, [0x07]) := ⟨rfl, rfl⟩

/-- The invocation of `scanning`. -/
def scanInv (w : Bytes) (cur : Nat) : Invocation := { w := w, cur := cur, out := [], frame := none }

theorem witness_FirstByteSelectsInstruction :
    (scanInv [0x33, 0x06] 1).nextInstr Config.default = some .ack ∧ Instr.ack.level = .scan ∧
    (0x00 : Byte) ≠ 0x01 ∧ (0x00 : Byte) ≠ 0x06 ∧ (0x00 : Byte) ≠ 0x15 ∧ (0x00 : Byte) ≠ 0x18 ∧
    (0x02 : Byte) ≠ 0x01 ∧ (0x02 : Byte) ≠ 0x06 ∧ (0x02 : Byte) ≠ 0x15 ∧ (0x02 : Byte) ≠ 0x18 := by decide

theorem witness_KeySelectsMessageRule : Config.default.ok = true ∧
    -- an unknown code in each direction, and a direction that is neither
    (0x49 : Byte) ∉ Config.default.responseCodes ∧ (0x15 : Byte) ∉ Config.default.requestCodes ∧
    (0x02 : Byte) ≠ 0x01 ∧ (0x02 : Byte) ≠ 0x00 := by decide

theorem witness_WrittenFrameIsAssembled : Config.default.ok = true ∧
    (zeros 252).length + 3 ≤ Config.default.maxLen ∧ (zeros 0).length + 3 ≤ Config.default.maxLen := by decide +kernel

theorem witness_NotationExpansion : (zeros 252).length ≤ 252 ∧ (zeros 0).length ≤ 252 := by decide +kernel

theorem witness_ChecksumFold : List.Perm [(0x01 : Byte), 0x02] [0x02, 0x01] := List.Perm.swap _ _ _

theorem witness_ChecksumDetectsOneCorruption :
    validate ([0x04, 0x01] ++ [0x13] ++ [0x01]) 0xE8 = true ∧ (0xE9 : Byte) ≠ 0xE8 ∧ (0x12 : Byte) ≠ 0x13 ∧
    validate ([0x04] ++ [0x01] ++ [0x13] ++ [0x01] ++ []) 0xE8 = true := by decide

-- The lengths 2, 3, 255 and, under MAX_LEN 16, 17: each clause at the ends of its range.
theorem witness_AssemblerOutcomes :
    (0x02 : Byte).toNat < 3 ∧ ({ Config.default with maxLen := 16 } : Config).maxLen < (0x11 : Byte).toNat ∧
    (3 ≤ (0x03 : Byte).toNat ∧ (0x03 : Byte).toNat ≤ Config.default.maxLen ∧ ([0x01, 0x15] : Bytes).length < (0x03 : Byte).toNat) ∧
    (3 ≤ (0xFF : Byte).toNat ∧ (0xFF : Byte).toNat ≤ Config.default.maxLen ∧ (zeros 254).length < (0xFF : Byte).toNat) ∧
    ([] : Bytes).length + 3 = (0x03 : Byte).toNat ∧ (zeros 252).length + 3 = (0xFF : Byte).toNat ∧
    compute [0x03, 0x01, 0x15] = 0xE8 ∧ compute [0x03, 0x01, 0x15] ≠ 0xE9 := by decide +kernel

theorem witness_NodeMaskIds : (0x01 :: zeros 27 ++ [0x80]).length = maskLen ∧
    nodesOf (0x01 :: zeros 27 ++ [0x80]) = [1, 232] := by decide +kernel

theorem witness_BitHelpersAndTierTable : (2 : Nat) ≠ 0 ∧ (2 : Nat) ≠ 1 := by decide

theorem witness_CountByteIsTheCount : (0 : Nat) < 256 ∧ (255 : Nat) < 256 := by decide

theorem witness_ControlFramesComplete : (scanning [0x06] 0).inv = some (scanInv [0x06] 0) := rfl

theorem witness_NoiseCompletes : (scanning [0x33] 0).inv = some (scanInv [0x33] 0) ∧
    isNoise [0x00, 0x02, 0xFF] = true ∧ (scanInv [0x33] 0).nextInstr Config.default = some (.noise 0x33) := by decide

/-- `scanning` under `MAX_LEN` 16. -/
def scanningShort (w : Bytes) (cur : Nat) : State := { scanning w cur with cfg := { Config.default with maxLen := 16 } }

theorem witness_SofActsOnOutcome :
    (scanning [0x33, 0x01] 1).inv = some (scanInv ([0x33] ++ [0x01]) 1) ∧
    (scanning [0x33, 0x01, 0x02] 1).inv = some (scanInv ([0x33] ++ 0x01 :: 0x02 :: []) 1) ∧
    (scanning [0x01, 0x03, 0x01, 0x15] 0).inv = some (scanInv ([] ++ 0x01 :: 0x03 :: [0x01, 0x15]) 0) ∧
    (scanning [0x01, 0x03, 0x01, 0x15, 0xE9] 0).inv =
      some (scanInv ([] ++ 0x01 :: 0x03 :: 0x01 :: 0x15 :: ([] ++ 0xE9 :: [])) 0) ∧
    (scanning [0x01, 0x03, 0x01, 0x15, 0xE8] 0).inv =
      some (scanInv ([] ++ 0x01 :: 0x03 :: 0x01 :: 0x15 :: ([] ++ 0xE8 :: [])) 0) ∧
    compute [0x03, 0x01, 0x15] = 0xE8 ∧ ([0x33] : Bytes).length = 1 ∧ ([] : Bytes).length = 0 ∧
    (scanning [] 0).cfg.ok = true ∧
    -- the length 2, and 17 under MAX_LEN 16
    (0x02 : Byte).toNat < 3 ∧
    (scanningShort [0x33, 0x01, 0x11] 1).inv = some (scanInv ([0x33] ++ 0x01 :: 0x11 :: []) 1) ∧
    (scanningShort [0x33, 0x01, 0x11] 1).cfg.maxLen < (0x11 : Byte).toNat :=
  ⟨rfl, rfl, rfl, rfl, rfl, by decide, rfl, rfl, by decide, by decide, rfl, by decide⟩

/-- What every payload statement asks of the state: a legal configuration, an invocation in progress, and the
accepted frame in hand. -/
abbrev InHand (d f : Byte) (p : Bytes) : Prop :=
  Config.default.ok = true ∧ (holding d f p).inv = some (held d f p) ∧ (held d f p).frame = some (frameOf d f p)

-- For each decoder: the longest payload that is too short, and the shortest that is not.
theorem witness_VersionDecodes :
    InHand 0x01 0x15 [] ∧ InHand 0x01 0x15 [0x07] ∧
    (frameOf 0x01 0x15 []).rawPayload.length < 1 ∧
    (frameOf 0x01 0x15 [0x07]).rawPayload = [] ++ [0x07] := by decide

theorem witness_MemoryIdDecodes :
    InHand 0x01 0x20 [0x80, 0x00, 0x00, 0x00] ∧ InHand 0x01 0x20 [0x80, 0x00, 0x00, 0x00, 0x03] ∧
    (frameOf 0x01 0x20 [0x80, 0x00, 0x00, 0x00]).rawPayload.length < 5 ∧
    (frameOf 0x01 0x20 [0x80, 0x00, 0x00, 0x00, 0x03]).rawPayload = 0x80 :: 0x00 :: 0x00 :: 0x00 :: 0x03 :: [] := by
  decide

theorem witness_SucNodeIdDecodes :
    InHand 0x01 0x56 [] ∧ InHand 0x01 0x56 [0x05] ∧
    (frameOf 0x01 0x56 []).rawPayload.length < 1 ∧
    (frameOf 0x01 0x56 [0x05]).rawPayload = 0x05 :: [] := by decide

theorem witness_InitDataDecodes :
    InHand 0x01 0x02 (zeros 31) ∧ InHand 0x01 0x02 (zeros 32) ∧
    (frameOf 0x01 0x02 (zeros 31)).rawPayload.length < (holding 0x01 0x02 (zeros 31)).cfg.initHdrLen + 29 ∧
    (frameOf 0x01 0x02 (zeros 32)).rawPayload = zeros 3 ++ zeros 29 ++ [] ∧
    (zeros 3).length = (holding 0x01 0x02 (zeros 32)).cfg.initHdrLen ∧ (zeros 29).length = 29 := by decide +kernel

theorem witness_NodeProtocolInfoDecodes :
    InHand 0x01 0x41 [0x93, 0x19, 0x00, 0x04] ∧ InHand 0x01 0x41 [0x93, 0x19, 0x04, 0x10, 0x01] ∧
    (frameOf 0x01 0x41 [0x93, 0x19, 0x00, 0x04]).rawPayload.length < 5 ∧
    (frameOf 0x01 0x41 [0x93, 0x19, 0x04, 0x10, 0x01]).rawPayload = 0x93 :: 0x19 :: ([] ++ [0x04, 0x10, 0x01]) := by
  decide

theorem witness_SendDataResponseDecodes :
    InHand 0x01 0x13 [] ∧ InHand 0x01 0x13 [0x01] ∧
    (frameOf 0x01 0x13 []).rawPayload.length < 1 ∧
    (frameOf 0x01 0x13 [0x01]).rawPayload = 0x01 :: [] ∧
    (sendDataResponse 0x01).callbackId = none ∧ (sendDataResponse 0x01).deliveryStatus = none ∧
    (sendDataResponse 0x01).returnValue = some 0x01 ∧
    (sendDataCallback 0x02 0x00).returnValue = none ∧ (sendDataCallback 0x02 0x00).callbackId = some 0x02 ∧
    (sendDataCallback 0x02 0x00).deliveryStatus = some 0x00 := by decide

theorem witness_SendDataCallbackDecodes :
    InHand 0x00 0x13 [0x02] ∧ InHand 0x00 0x13 [0x02, 0x00] ∧
    (frameOf 0x00 0x13 [0x02]).rawPayload.length < 2 ∧
    (frameOf 0x00 0x13 [0x02, 0x00]).rawPayload = 0x02 :: 0x00 :: [] := by decide

theorem witness_RequestNodeInfoDecodes :
    InHand 0x01 0x60 [] ∧ InHand 0x01 0x60 [0x01] ∧
    (frameOf 0x01 0x60 []).rawPayload.length < 1 ∧
    (frameOf 0x01 0x60 [0x01]).rawPayload = 0x01 :: [] := by decide

theorem witness_ApplicationUpdateDecodes :
    InHand 0x00 0x49 [0x84] ∧ InHand 0x00 0x49 [0x84, 0x05] ∧
    (frameOf 0x00 0x49 [0x84]).rawPayload.length < 2 ∧
    (frameOf 0x00 0x49 [0x84, 0x05]).rawPayload = 0x84 :: 0x05 :: [] := by decide

theorem witness_RoutingInfoDecodes :
    InHand 0x01 0x80 (zeros 28) ∧ InHand 0x01 0x80 (zeros 29) ∧
    (frameOf 0x01 0x80 (zeros 28)).rawPayload.length < 29 ∧
    (frameOf 0x01 0x80 (zeros 29)).rawPayload = zeros 29 ++ [] ∧ (zeros 29).length = 29 := by decide +kernel

/-- The application command with the length byte. -/
def withLen (p : Bytes) : State := { holding 0x00 0x04 p with cfg := { Config.default with appcmdHasLen := true } }

theorem witness_ApplicationCommandDecodes :
    InHand 0x00 0x04 [0x00, 0x07] ∧ InHand 0x00 0x04 [0x00, 0x07, 0x20] ∧
    InHand 0x00 0x04 [0x00, 0x07, 0x02] ∧ InHand 0x00 0x04 [0x00, 0x07, 0x02, 0x20] ∧
    (holding 0x00 0x04 []).cfg.appcmdHasLen = false ∧
    (frameOf 0x00 0x04 [0x00, 0x07]).rawPayload.length < 3 ∧
    (frameOf 0x00 0x04 [0x00, 0x07, 0x20]).rawPayload = 0x00 :: 0x07 :: 0x20 :: [] ∧
    (withLen []).cfg.appcmdHasLen = true ∧ (withLen [0x00]).inv = some (held 0x00 0x04 [0x00]) ∧
    (frameOf 0x00 0x04 [0x00, 0x07, 0x02]).rawPayload.length < 4 ∧
    (frameOf 0x00 0x04 [0x00, 0x07, 0x02, 0x20]).rawPayload = 0x00 :: 0x07 :: 0x02 :: 0x20 :: [] := by decide

theorem witness_OpaqueDecodes : Config.default.knownKey 0x00 0x15 = false ∧ InHand 0x00 0x15 [] := by decide

theorem witness_ControlAndNoiseFrame :
    (∃ t, exec .ack (scanning [0x06] 0) = .next t) ∧ (∃ t, exec .nak (scanning [0x15] 0) = .next t) ∧
    (∃ t, exec .can (scanning [0x18] 0) = .next t) ∧ (∃ t, exec (.noise 0x33) (scanning [0x33] 0) = .next t) :=
  ⟨⟨_, rfl⟩, ⟨_, rfl⟩, ⟨_, rfl⟩, ⟨_, rfl⟩⟩

-- SOF on each of its four outcomes.
theorem witness_SofFrame :
    (∃ t, exec .sof (scanning [0x01] 0) = .next t) ∧ (∃ t, exec .sof (scanning [0x01, 0x02] 0) = .next t) ∧
    (∃ t, exec .sof (scanning [0x01, 0x03, 0x01, 0x15, 0xE9] 0) = .next t) ∧
    (∃ t, exec .sof (scanning [0x01, 0x03, 0x01, 0x15, 0xE8] 0) = .next t) :=
  ⟨⟨_, rfl⟩, ⟨_, rfl⟩, ⟨_, rfl⟩, ⟨_, rfl⟩⟩

theorem witness_PayloadDecoderFrame :
    Instr.version.level = .key ∧ (∃ t, exec .version (holding 0x01 0x15 [0x07]) = .next t) ∧
    (∃ t, exec .version (holding 0x01 0x15 []) = .next t) := ⟨rfl, ⟨_, rfl⟩, ⟨_, rfl⟩⟩

theorem witness_MeaningsNeedTheirContext : State.reset.inv = none ∧
    Instr.version.level = .key ∧ (scanning [0x06] 0).inv = some (scanInv [0x06] 0) ∧
    (scanInv [0x06] 0).frame = none := by decide

theorem witness_StepRunsTheDecodedInstruction :
    (scanning [0x33, 0x06] 1).cfg.ok = true ∧ (scanning [0x33, 0x06] 1).inv = some (scanInv ([0x33] ++ 0x06 :: []) 1) ∧
    decode Config.default (scanInv [0x33, 0x06] 1).level (scanInv [0x33, 0x06] 1).fetchBytes = .ok (.ack, []) ∧
    (holding 0x01 0x15 [0x07]).cfg.ok = true ∧
    (held 0x01 0x15 [0x07]).frame = some (frameOf 0x01 0x15 [0x07]) := ⟨by decide, rfl, rfl, by decide, rfl⟩

theorem witness_StepEndsInvocationAtBufferEnd : (scanning [0x06] 1).cfg.ok = true ∧
    (scanning [0x06] 1).inv = some (scanInv [0x06] 1) ∧ (scanInv [0x06] 1).frame = none ∧
    (scanInv [0x06] 1).w.length ≤ (scanInv [0x06] 1).cur := by decide

/-- A session with PB `pb` and the caller's operations `calls`. -/
def waiting (pb : Bytes) (calls : List Call) : State := { State.reset with pb := pb, calls := calls }

theorem witness_StepTakesTheNextCall : (waiting [] []).cfg.ok = true ∧ (waiting [] []).inv = none ∧
    (waiting [] []).calls = [] ∧ (waiting [0x01] [.decode [0x03], .reset]).calls = .decode [0x03] :: [.reset] ∧
    (waiting [0x01] [.reset]).calls = .reset :: [] := by decide

theorem witness_StepNeverStops : State.reset.cfg.ok = true ∧ (scanning [0x01] 0).cfg.ok = true := by decide

theorem witness_BadConfigurationIsRefused :
    ({ State.reset with cfg := { Config.default with maxLen := 15 } } : State).cfg.ok = false := by decide

theorem witness_ConfigurationIsFixed : (∃ t, step (waiting [] [.reset]) = .next t) ∧
    ({ Config.default with maxLen := 16 } : Config) ≠ State.reset.cfg := ⟨⟨_, rfl⟩, by decide⟩

-- A step that goes on, and the two ends of an invocation.
theorem witness_InvocationIsAtomicToTheCaller :
    (scanning [0x06] 0).inv = some (scanInv [0x06] 0) ∧ (∃ t, step (scanning [0x06] 0) = .next t) ∧
    (∃ t, step (scanning [0x06] 1) = .next t) ∧ (∃ t, step (scanning [0x01] 0) = .next t) :=
  ⟨rfl, ⟨_, rfl⟩, ⟨_, rfl⟩, ⟨_, rfl⟩⟩

theorem witness_OverlappingCallIsRefused : (scanning [0x06] 0).inv = some (scanInv [0x06] 0) := rfl

theorem witness_ResetLosesThePartialFrame : (waiting [0x01, 0x05] []).inv = none ∧
    (scanning [0x06] 0).inv = some (scanInv [0x06] 0) := by decide

-- From reset, between invocations with a partial frame, and with an accepted frame in hand.
theorem witness_StepKeepsTheInvariant :
    State.reset.ok = true ∧ (waiting [0x01, 0x05, 0x00] [.decode [0x13]]).ok = true ∧
    (holding 0x01 0x15 [0x07]).ok = true ∧ (∃ t, step (holding 0x01 0x15 [0x07]) = .next t) :=
  ⟨by decide, by decide, by decide, ⟨_, rfl⟩⟩

theorem witness_DiagnosticCodes : (scanning [0x01, 0x02] 0).codesOk = true ∧
    (∃ t, step (scanning [0x01, 0x02] 0) = .next t) := ⟨by decide, ⟨_, rfl⟩⟩

-- A message and a control item, each at the one step that emits it.
theorem witness_ItemsAreBackedByBytes :
    ((holding 0x01 0x15 [0x07]).ok = true ∧ ∃ t u, step (holding 0x01 0x15 [0x07]) = .next t ∧ t.inv = some u ∧
      u.out = (held 0x01 0x15 [0x07]).out ++ [.msg (.version [] 0x07)]) ∧
    ((scanning [0x18] 0).ok = true ∧ ∃ t u, step (scanning [0x18] 0) = .next t ∧ t.inv = some u ∧
      u.out = (scanInv [0x18] 0).out ++ [.ctl .can]) :=
  ⟨⟨by decide, _, _, rfl, rfl, rfl⟩, ⟨by decide, _, _, rfl, rfl, rfl⟩⟩

theorem witness_InvocationRefinesDecode : (waiting [0x01, 0x03] [.decode [0x01, 0x15, 0xE8]]).cfg.ok = true ∧
    (waiting [0x01, 0x03] [.decode [0x01, 0x15, 0xE8]]).inv = none ∧
    (waiting [0x01, 0x03] [.decode [0x01, 0x15, 0xE8]]).calls = .decode [0x01, 0x15, 0xE8] :: [] := by decide

theorem witness_SessionRefinesDecodes : (waiting [] [.decode [0x01], .decode [0x02]]).cfg.ok = true ∧
    (waiting [] [.decode [0x01], .decode [0x02]]).inv = none ∧
    (waiting [] [.decode [0x01], .decode [0x02]]).calls = [[0x01], [0x02]].map .decode := by decide

theorem witness_PendingBufferShape : ∃ t, (waiting [0x01, 0x05] []).resetSession = .next t := ⟨_, rfl⟩

-- Noise before a control frame and before a whole data frame, and noise at the end.
theorem witness_NoiseInvariance :
    (∀ p ∈ [(([0x33, 0x44] : Bytes), ([0x01, 0x04, 0x01, 0x13, 0x01, 0xE8] : Bytes)), ([0x00], [0x06])],
      isNoise p.1 = true ∧ wholeFrame Config.default p.2 = true) ∧ isNoise [0xFF] = true := by decide

-- The serial clauses at the lengths 2 and 3, and a body with one byte to come and with two.
theorem witness_SerialFormAgrees : isMarker 0x33 = false ∧ (0x02 : Byte).toNat < 3 ∧ 3 ≤ (0x03 : Byte).toNat ∧
    (0x03 : Byte).toNat ≤ Config.default.maxLen ∧ ([0x01] : Bytes).length + 1 < (0x03 : Byte).toNat ∧
    ([0x01, 0x15] : Bytes).length + 1 = (0x03 : Byte).toNat ∧ pendingOk Config.default [] = true ∧ pendingOk Config.default [0x01] = true ∧
    pendingOk Config.default [0x01, 0x03, 0x01, 0x15] = true := by decide

theorem witness_EmptyChunkChangesNothing : pendingOk Config.default [0x01, 0x05, 0x00] = true := by decide

theorem witness_KeptFrameWaits : 3 ≤ (0x03 : Byte).toNat ∧ (0x03 : Byte).toNat ≤ Config.default.maxLen ∧
    ([0x01] : Bytes).length + ([0x15] : Bytes).length < (0x03 : Byte).toNat := by decide

theorem witness_ChecksumMismatchResumesAfterFrame :
    (decodeChunk Config.default [] [0x33, 0x06]).2 = [] ∧ 3 ≤ (0x03 : Byte).toNat ∧
    (0x03 : Byte).toNat ≤ Config.default.maxLen ∧ ([] : Bytes).length + 3 = (0x03 : Byte).toNat ∧
    compute (0x03 :: 0x01 :: 0x15 :: []) ≠ 0xE9 := by decide

theorem witness_BadLengthResumesAtLength :
    (decodeChunk Config.default [] [0x33, 0x06]).2 = [] ∧ (0x02 : Byte).toNat < 3 ∧
    ({ Config.default with maxLen := 16 } : Config).maxLen < (0x11 : Byte).toNat := by decide

theorem witness_ValidFrameGivesOneItem :
    (decodeChunk Config.default [] [0x33, 0x06]).2 = [] ∧ 3 ≤ (0x03 : Byte).toNat ∧
    (0x03 : Byte).toNat ≤ Config.default.maxLen ∧ ([] : Bytes).length + 3 = (0x03 : Byte).toNat ∧
    compute (0x03 :: 0x01 :: 0x15 :: []) = 0xE8 ∧
    decodePayload Config.default (frameOf 0x01 0x15 []) = .malformed 1 := ⟨by decide, by decide, by decide, rfl, by decide, rfl⟩

end Sys2Proof.Tests
end

