-- ==== Sys2Proof/Proofs/Configuration.lean ====
section
/-! The constraints of R8 as propositions, one lemma per check of Sys2Proof/WellFormed.lean, and the refusal of a
configuration that breaks one. -/

namespace Sys2Proof

/-! ### Bits and bit fields -/

theorem bitOutside_iff {i lo w : Nat} : bitOutside i lo w = true ↔ ¬ (lo ≤ i ∧ i < lo + w) := by
  simp only [bitOutside, Bool.or_eq_true, decide_eq_true_eq]
  omega

/-- Two fields that both have a bit share none exactly when one ends before the other begins: if they overlap,
the larger of their lowest bits lies in both. -/
theorem no_common_bit_iff {lo w lo' w' : Nat} (hw : 1 ≤ w) (hw' : 1 ≤ w') :
    (∀ i, lo ≤ i → i < lo + w → ¬ (lo' ≤ i ∧ i < lo' + w')) ↔ lo + w ≤ lo' ∨ lo' + w' ≤ lo := by
  constructor
  · intro h
    have hmax := h (max lo lo')
    omega
  · intro h i hlo hhi
    omega

/-- A bit lies outside a field exactly when it differs from every bit of the field. -/
theorem forall_field_bit_ne_iff {lo w b : Nat} :
    (∀ i, lo ≤ i → i < lo + w → i ≠ b) ↔ ¬ (lo ≤ b ∧ b < lo + w) :=
  ⟨fun h hb => h b hb.1 hb.2 rfl, fun h _ hlo hhi hib => h (hib ▸ ⟨hlo, hhi⟩)⟩

/-! ### The five constraints -/

namespace Config

variable {c : Config}

/-- R8(a). -/
theorem lengthsOk_iff : c.lengthsOk = true ↔ minLen ≤ 16 ∧ 16 ≤ c.maxLen ∧ c.maxLen ≤ 255 := by
  simp only [lengthsOk, Bool.and_eq_true, decide_eq_true_eq, and_assoc]

/-- R8(b). -/
theorem responseCodesOk_iff : c.responseCodesOk = true ↔ List.Pairwise (· ≠ ·) c.responseCodes :=
  decide_eq_true_iff

/-- R8(c). -/
theorem requestCodesOk_iff : c.requestCodesOk = true ↔ List.Pairwise (· ≠ ·) c.requestCodes :=
  decide_eq_true_iff

/-- R8(d). The check compares the ends of the tier and version fields, which says that they share no bit only when
each has one, as R8(e) asks. -/
theorem capabilityFieldsOk_iff (ht : 1 ≤ c.npiTierW) (hv : 1 ≤ c.npiVerW) :
    c.capabilityFieldsOk = true ↔
      (∀ i, c.npiTierLo ≤ i → i < c.npiTierLo + c.npiTierW →
        i ≠ c.npiListeningBit ∧ ¬ (c.npiVerLo ≤ i ∧ i < c.npiVerLo + c.npiVerW)) ∧
      ¬ (c.npiVerLo ≤ c.npiListeningBit ∧ c.npiListeningBit < c.npiVerLo + c.npiVerW) ∧
      c.npiRoutingBit ≠ c.npiBeamingBit ∧ c.npiRoutingBit ≠ c.npiSecurityBit ∧
      c.npiBeamingBit ≠ c.npiSecurityBit := by
  have hbits : [c.npiRoutingBit, c.npiBeamingBit, c.npiSecurityBit].Nodup ↔
      c.npiRoutingBit ≠ c.npiBeamingBit ∧ c.npiRoutingBit ≠ c.npiSecurityBit ∧
      c.npiBeamingBit ≠ c.npiSecurityBit := by
    simp [and_assoc]
  simp only [capabilityFieldsOk, Bool.and_eq_true, Bool.or_eq_true, decide_eq_true_eq, bitOutside_iff, hbits,
    ← no_common_bit_iff ht hv, ← forall_field_bit_ne_iff (b := c.npiListeningBit) (lo := c.npiTierLo),
    forall_and]
  tauto

/-- R8(e), with the flag positions (R145). -/
theorem capabilityWidthsOk_iff :
    c.capabilityWidthsOk = true ↔
      1 ≤ c.npiTierW ∧ c.npiTierW ≤ 8 ∧ 1 ≤ c.npiVerW ∧ c.npiVerW ≤ 8 ∧
      c.npiTierLo + c.npiTierW ≤ 8 ∧ c.npiVerLo + c.npiVerW ≤ 8 ∧
      c.npiListeningBit ≤ 7 ∧ c.npiRoutingBit ≤ 7 ∧ c.npiBeamingBit ≤ 7 ∧ c.npiSecurityBit ≤ 7 := by
  simp only [capabilityWidthsOk, Bool.and_eq_true, decide_eq_true_eq, and_assoc]

/-- R8 is its five constraints. -/
theorem ok_iff :
    c.ok = true ↔ c.lengthsOk = true ∧ c.responseCodesOk = true ∧ c.requestCodesOk = true ∧
      c.capabilityFieldsOk = true ∧ c.capabilityWidthsOk = true := by
  simp only [ok, Bool.and_eq_true, and_assoc]

end Config

/-! ### The refusal -/

namespace Machine

theorem step_of_bad_configuration {s : State} (h : s.cfg.ok = false) : step s = .refused .badConfiguration := by
  simpa [h] using step_cases s

theorem boot_of_bad_configuration {c : Config} (h : c.ok = false) :
    State.boot c = .refused .badConfiguration := by
  simp [State.boot, h]

end Machine

/-- Settles O39, constraint by constraint: the widths of (e) come first, since (d) is read under them. -/
theorem badConfigurationIsRefused : Obligations.BadConfigurationIsRefused := by
  refine ⟨fun c => Config.ok_iff.trans ?_, fun _ => Machine.step_of_bad_configuration,
    fun _ => Machine.boot_of_bad_configuration, by decide⟩
  refine and_congr Config.lengthsOk_iff (and_congr Config.responseCodesOk_iff
    (and_congr Config.requestCodesOk_iff ?_))
  rw [Config.capabilityWidthsOk_iff]
  exact and_congr_left fun ⟨hTierW, _, hVerW, _⟩ => Config.capabilityFieldsOk_iff hTierW hVerW

end Sys2Proof
end

