-- ==== Sys2Proof/Proofs/StateRules.lean ====
section
/-! The state of spec/10_state.md: the derived mode, a state between invocations, and the context every meaning
needs. -/

namespace Sys2Proof.Machine

/-! ### The mode -/

theorem State.mode_eq_idle_iff {s : State} : s.mode = .idle ↔ s.pb = [] := by
  cases h : s.pb <;> simp [State.mode, modeOf, h]

theorem State.mode_eq_awaitingMore_iff {s : State} : s.mode = .awaitingMore ↔ s.pb ≠ [] := by
  cases h : s.pb <;> simp [State.mode, modeOf, h]

/-! ### Between invocations -/

/-- Between invocations the invariant is the one of the configuration (R8) and of PB (R211). -/
theorem State.ok_iff_of_no_invocation {s : State} (h : s.inv = none) :
    s.ok = true ↔ s.cfg.ok = true ∧ pendingOk s.cfg s.pb = true := by
  simp [State.ok, h]

/-- Between invocations the only diagnostics are those already returned. -/
theorem State.codesOk_of_no_invocation {s : State} (h : s.inv = none) :
    s.codesOk = s.returned.all (fun items => items.all Item.codeOk) := by
  simp [State.codesOk, h]

theorem default_config_ok : Config.default.ok = true := by decide

/-! ### The context of a meaning -/

/-- Every meaning acts on the invocation in progress, so none has an effect without one (R33, R34). -/
theorem exec_of_no_invocation {s : State} (h : s.inv = none) (i : Instr) : exec i s = .fault .noInvocation := by
  cases i <;> exact withInvocation_none h _

/-- A payload rule is applied to the accepted frame only (R126). -/
theorem execPayload_of_no_frame {s : State} {v : Invocation} (hv : s.inv = some v) (hf : v.frame = none)
    (rule : Bytes → PayloadResult) : execPayload rule s = .fault .noFrame := by
  simp [execPayload, hv, hf]

end Sys2Proof.Machine

namespace Sys2Proof

open Machine

/-- Settles O34: by the two contexts a meaning can lack. -/
theorem meaningsNeedTheirContext : Obligations.MeaningsNeedTheirContext := by
  refine ⟨fun i _ h => exec_of_no_invocation h i, fun i s v hkey hv hf => ?_⟩
  obtain ⟨rule, hexec⟩ := exec_key hkey s
  exact hexec.trans (execPayload_of_no_frame hv hf rule)

/-- Settles O44: the reset state stands between invocations with nothing returned, so its invariants are those of
the default configuration and of an empty PB. -/
theorem resetValues : Obligations.ResetValues :=
  ⟨rfl, State.mode_eq_idle_iff.mpr rfl, rfl,
    (State.ok_iff_of_no_invocation rfl).mpr ⟨default_config_ok, rfl⟩,
    State.codesOk_of_no_invocation rfl⟩

/-- Settles O45: both modes by whether PB is empty, which its length says. -/
theorem modeIsDerivedFromPending : Obligations.ModeIsDerivedFromPending := fun _ =>
  ⟨State.mode_eq_idle_iff.trans List.length_eq_zero_iff.symm,
    State.mode_eq_awaitingMore_iff.trans List.length_pos_iff.symm⟩

end Sys2Proof
end

/-! The invocation as the caller sees it (R48): what one step of an invocation can do, that the loop of R208 computes
what the remaining steps will, and from both that a session of calls is the sequence of their atomic decodes. -/

namespace Sys2Proof.Machine

/-! ### One step of an invocation in progress -/

/-- The marker of a control frame (R110, R204). -/
def CtlKind.marker : CtlKind → Marker
  | .ack => .ack
  | .nak => .nak
  | .can => .can

/-- A control byte runs the one shared control meaning (R114 to R116, R204). -/
theorem exec_decodeMarker_control {b : Byte} {k : CtlKind} (h : markerOf b = some k.marker) (s : State) :
    exec (decodeMarker b) s = execControl k s := by
  cases k <;> rw [decodeMarker, h] <;> rfl

/-- What a step that goes on with the invocation `v` can make of it: one constructor for each way (R112, R204, R205). -/
inductive Invocation.GoesOn (c : Config) (v : Invocation) : Invocation → Prop
  | control {b : Byte} (k : CtlKind) (hf : v.frame = none) (hb : readByte v.w v.cur = some b)
      (hm : markerOf b = some k.marker) : GoesOn c v ((v.emit (.ctl k)).consume 1)
  | noise {b : Byte} (hf : v.frame = none) (hb : readByte v.w v.cur = some b) (hm : markerOf b = none) :
      GoesOn c v (v.consume 1)
  | badLength {b : Byte} (len : Byte) (hf : v.frame = none) (hb : readByte v.w v.cur = some b)
      (hm : markerOf b = some .sof) (ha : assemble c v.w v.cur = .badLength len) :
      GoesOn c v ((v.raise (.badLength len)).consume 1)
  | checksumBad {b : Byte} (len declared computed : Byte) (hf : v.frame = none) (hb : readByte v.w v.cur = some b)
      (hm : markerOf b = some .sof) (ha : assemble c v.w v.cur = .checksumBad len declared computed) :
      GoesOn c v ((v.raise (.checksumMismatch len declared computed)).consume (2 + len.toNat))
  | accepted {b : Byte} (f : DataFrame) (hf : v.frame = none) (hb : readByte v.w v.cur = some b)
      (hm : markerOf b = some .sof) (ha : assemble c v.w v.cur = .ok f) : GoesOn c v (v.hand f)
  | decoded (f : DataFrame) (hf : v.frame = some f) :
      GoesOn c v (((v.emit (payloadItem f (decodePayload c f))).consume (2 + f.declaredLength.toNat)).release)

/-- The two ways an invocation ends, with the PB each one leaves (R203, R205, R207). -/
inductive Invocation.Ends (c : Config) (v : Invocation) : Bytes → Prop
  | bufferEnd (hf : v.frame = none) (hw : v.w.length ≤ v.cur) : Ends c v []
  | incomplete {b : Byte} (hf : v.frame = none) (hb : readByte v.w v.cur = some b)
      (hm : markerOf b = some .sof) (ha : assemble c v.w v.cur = .incomplete) : Ends c v (v.w.drop v.cur)

/-- The byte at the cursor either goes on with the invocation or ends it. -/
theorem exec_decodeMarker_cases {s : State} {v : Invocation} {b : Byte} (hv : s.inv = some v) (hf : v.frame = none)
    (hb : readByte v.w v.cur = some b) :
    (∃ u, v.GoesOn s.cfg u ∧ exec (decodeMarker b) s = .next (s.setInv u)) ∨
    (∃ pb, v.Ends s.cfg pb ∧ exec (decodeMarker b) s = .next (s.finish v pb)) := by
  have control : ∀ k : CtlKind, markerOf b = some k.marker →
      ∃ u, v.GoesOn s.cfg u ∧ exec (decodeMarker b) s = .next (s.setInv u) := fun k hm =>
    ⟨_, .control k hf hb hm, (exec_decodeMarker_control hm s).trans (withInvocation_some hv _)⟩
  cases hm : markerOf b with
  | none =>
    have hexec : exec (decodeMarker b) s = execNoise b s := by rw [decodeMarker, hm]; rfl
    exact .inl ⟨_, .noise hf hb hm, hexec.trans (withInvocation_some hv _)⟩
  | some k =>
    cases k with
    | ack => exact .inl (control .ack hm)
    | nak => exact .inl (control .nak hm)
    | can => exact .inl (control .can hm)
    | sof =>
      have hexec : exec (decodeMarker b) s = execSof s := by rw [decodeMarker, hm]; rfl
      rw [hexec, execSof, withInvocation_some hv]
      cases ha : assemble s.cfg v.w v.cur with
      | incomplete => exact .inr ⟨_, .incomplete hf hb hm ha, rfl⟩
      | badLength len => exact .inl ⟨_, .badLength len hf hb hm ha, rfl⟩
      | checksumBad len d k => exact .inl ⟨_, .checksumBad len d k hf hb hm ha, rfl⟩
      | ok f => exact .inl ⟨_, .accepted f hf hb hm ha, rfl⟩

/-- Only a configuration that satisfies R8 is stepped. -/
theorem cfg_ok_of_step_next {s t : State} (h : step s = .next t) : s.cfg.ok = true := by
  cases hok : s.cfg.ok with
  | true => rfl
  | false => rw [step_of_bad_configuration hok] at h; cases h

/-- A step of an invocation in progress writes the invocation alone, or ends it. -/
theorem step_invocation_cases {s : State} {v : Invocation} (hok : s.cfg.ok = true) (hv : s.inv = some v) :
    (∃ u, v.GoesOn s.cfg u ∧ step s = .next (s.setInv u)) ∨
    (∃ pb, v.Ends s.cfg pb ∧ step s = .next (s.finish v pb)) := by
  rcases step_cases s with ⟨hbad, -⟩ | ⟨-, hidle, -⟩ | ⟨x, f, -, hx, hf, h⟩ | ⟨x, -, hx, hf, hw, h⟩ |
      ⟨x, b, -, hx, hf, hb, h⟩
  · simp [hok] at hbad
  · simp [hv] at hidle
  all_goals obtain rfl : v = x := Option.some.inj (hv.symm.trans hx)
  · exact .inl ⟨_, .decoded f hf, h⟩
  · exact .inr ⟨_, .bufferEnd hf hw, h⟩
  · rw [h]; exact exec_decodeMarker_cases hv hf hb

/-! ### What the caller can see of it -/

/-- The working buffer is never written, the cursor never goes back, and at most one item is appended (R40, R25, R27). -/
theorem Invocation.GoesOn.frame_rule {c : Config} {v u : Invocation} (h : v.GoesOn c u) :
    u.w = v.w ∧ v.cur ≤ u.cur ∧ (u.out = v.out ∨ ∃ x, u.out = v.out ++ [x]) := by
  cases h with
  | control k => exact ⟨rfl, Nat.le_add_right _ _, .inr ⟨_, rfl⟩⟩
  | noise => exact ⟨rfl, Nat.le_add_right _ _, .inl rfl⟩
  | badLength len => exact ⟨rfl, Nat.le_add_right _ _, .inr ⟨_, rfl⟩⟩
  | checksumBad len d k => exact ⟨rfl, Nat.le_add_right _ _, .inr ⟨_, rfl⟩⟩
  | accepted f => exact ⟨rfl, Nat.le_refl _, .inl rfl⟩
  | decoded f => exact ⟨rfl, Nat.le_add_right _ _, .inr ⟨_, rfl⟩⟩

/-- PB at the end is empty or the bytes from the cursor on (R207). -/
theorem Invocation.Ends.pb_cases {c : Config} {v : Invocation} {pb : Bytes} (h : v.Ends c pb) :
    pb = [] ∨ pb = v.w.drop v.cur := by
  cases h with
  | bufferEnd => exact .inl rfl
  | incomplete => exact .inr rfl

/-! ### The loop of R208 at the cursor -/

theorem scan_of_length_le {w : Bytes} {cur : Nat} (h : w.length ≤ cur) : scan w cur = none := by
  rw [scan, List.drop_eq_nil_of_le h, scanFrom_nil]

theorem scan_of_marker {w : Bytes} {cur : Nat} {b : Byte} {k : Marker} (hb : readByte w cur = some b)
    (hm : markerOf b = some k) : scan w cur = some (cur, k) := by
  rw [scan, drop_of_readByte hb, scanFrom_cons_marker hm]

/-- A noise byte is passed over (R112). -/
theorem scan_of_noise {w : Bytes} {cur : Nat} {b : Byte} (hb : readByte w cur = some b) (hm : markerOf b = none) :
    scan w cur = scan w (cur + 1) := by
  rw [scan, drop_of_readByte hb, scanFrom_cons_noise hm, scan]

section Loop

variable {c : Config} {w : Bytes}

/-- Past the last marker the loop ends with an empty PB, whatever the passes left (R203). -/
theorem decodeLoop_of_scan_none {cur : Nat} (h : scan w cur = none) (passes : Nat) (out : List Item) :
    decodeLoop c w passes cur out = (out, []) := by
  cases passes with
  | zero => rfl
  | succ n => simp only [decodeLoop, h]

/-- A noise byte at the cursor costs the loop no pass (R206). -/
theorem decodeLoop_noise {cur : Nat} {b : Byte} (hb : readByte w cur = some b) (hm : markerOf b = none) (passes : Nat)
    (out : List Item) : decodeLoop c w passes cur out = decodeLoop c w passes (cur + 1) out := by
  cases passes with
  | zero => rfl
  | succ n => simp only [decodeLoop, scan_of_noise hb hm]

/-- A pass that finds a control byte (R204). -/
theorem decodeLoop_control {cur i : Nat} {k : CtlKind} (h : scan w cur = some (i, k.marker)) (n : Nat)
    (out : List Item) : decodeLoop c w (n + 1) cur out = decodeLoop c w n (i + 1) (out ++ [.ctl k]) := by
  cases k <;> simp only [CtlKind.marker] at h <;> simp only [decodeLoop, h]

/-- An incomplete frame ends the loop and is kept from its SOF on (R205). -/
theorem decodeLoop_incomplete {cur i : Nat} (h : scan w cur = some (i, .sof)) (ha : assemble c w i = .incomplete)
    (n : Nat) (out : List Item) : decodeLoop c w (n + 1) cur out = (out, w.drop i) := by
  simp only [decodeLoop, h, ha]

/-- A pass that finds a SOF with an illegal length resumes after the SOF (R205). -/
theorem decodeLoop_badLength {cur i : Nat} {len : Byte} (h : scan w cur = some (i, .sof))
    (ha : assemble c w i = .badLength len) (n : Nat) (out : List Item) :
    decodeLoop c w (n + 1) cur out = decodeLoop c w n (i + 1) (out ++ [diagItem (.badLength len)]) := by
  simp only [decodeLoop, h, ha]

/-- A pass that finds a frame with a bad checksum resumes after the frame (R205). -/
theorem decodeLoop_checksumBad {cur i : Nat} {len declared computed : Byte} (h : scan w cur = some (i, .sof))
    (ha : assemble c w i = .checksumBad len declared computed) (n : Nat) (out : List Item) :
    decodeLoop c w (n + 1) cur out = decodeLoop c w n (i + 2 + len.toNat)
      (out ++ [diagItem (.checksumMismatch len declared computed)]) := by
  simp only [decodeLoop, h, ha]

/-- A pass that finds a valid frame emits its payload's item and resumes after the frame (R205). -/
theorem decodeLoop_ok {cur i : Nat} {f : DataFrame} (h : scan w cur = some (i, .sof)) (ha : assemble c w i = .ok f)
    (n : Nat) (out : List Item) :
    decodeLoop c w (n + 1) cur out = decodeLoop c w n (i + 2 + f.declaredLength.toNat)
      (out ++ [payloadItem f (decodePayload c f)]) := by
  simp only [decodeLoop, h, ha]

/-- Every pass of the loop either ends it or appends one item and moves the cursor on (R206). -/
theorem decodeLoop_pass (c : Config) (w : Bytes) (cur : Nat) :
    (∃ pb, ∀ n out, decodeLoop c w (n + 1) cur out = (out, pb)) ∨
    (∃ next x, cur < next ∧ ∀ n out, decodeLoop c w (n + 1) cur out = decodeLoop c w n next (out ++ [x])) := by
  cases hs : scan w cur with
  | none => exact .inl ⟨[], fun n => decodeLoop_of_scan_none hs (n + 1)⟩
  | some r =>
    obtain ⟨i, k⟩ := r
    have hi : cur ≤ i := (scan_bounds hs).1
    have control : ∀ k : CtlKind, scan w cur = some (i, k.marker) → ∃ next x, cur < next ∧
        ∀ n out, decodeLoop c w (n + 1) cur out = decodeLoop c w n next (out ++ [x]) := fun k h =>
      ⟨i + 1, .ctl k, by omega, decodeLoop_control h⟩
    cases k with
    | ack => exact .inr (control .ack hs)
    | nak => exact .inr (control .nak hs)
    | can => exact .inr (control .can hs)
    | sof =>
      cases ha : assemble c w i with
      | incomplete => exact .inl ⟨w.drop i, decodeLoop_incomplete hs ha⟩
      | badLength len => exact .inr ⟨_, _, by omega, decodeLoop_badLength hs ha⟩
      | checksumBad len d k => exact .inr ⟨_, _, by omega, decodeLoop_checksumBad hs ha⟩
      | ok f => exact .inr ⟨_, _, by omega, decodeLoop_ok hs ha⟩

/-- With a pass for every byte left and one more, the number of passes does not matter (R206). -/
theorem decodeLoop_passes_irrelevant {n m cur : Nat} (hn : w.length < cur + n) (hm : w.length < cur + m)
    (out : List Item) : decodeLoop c w n cur out = decodeLoop c w m cur out := by
  have pastEnd : ∀ {cur : Nat}, w.length < cur + 0 → ∀ passes out, decodeLoop c w passes cur out = (out, []) :=
    fun h => decodeLoop_of_scan_none (scan_of_length_le (by omega))
  induction n generalizing m cur out with
  | zero => rw [pastEnd hn, pastEnd hn]
  | succ n ih =>
    cases m with
    | zero => rw [pastEnd hm, pastEnd hm]
    | succ m =>
      rcases decodeLoop_pass c w cur with ⟨pb, h⟩ | ⟨next, x, hnext, h⟩
      · rw [h, h]
      · rw [h, h]; exact ih (by omega) (by omega) _

/-- Once the cursor has moved, the passes of a whole buffer suffice with one spent. -/
theorem decodeLoop_spend_pass {cur : Nat} (h : 0 < cur) (out : List Item) :
    decodeLoop c w w.length cur out = decodeLoop c w (w.length + 1) cur out :=
  decodeLoop_passes_irrelevant (by omega) (by omega) out

end Loop

/-! ### The answer of an invocation -/

theorem Invocation.answer_of_no_frame {c : Config} {v : Invocation} (h : v.frame = none) :
    v.answer c = decodeLoop c v.w (v.w.length + 1) v.cur v.out := by
  simp only [Invocation.answer, h]

/-- With a frame in hand the answer is that of the invocation that has decoded it (R140, R205). -/
theorem Invocation.answer_of_frame {c : Config} {v : Invocation} {f : DataFrame} (h : v.frame = some f) :
    v.answer c = decodeLoop c v.w (v.w.length + 1) (v.cur + 2 + f.declaredLength.toNat)
      (v.out ++ [payloadItem f (decodePayload c f)]) := by
  simp only [Invocation.answer, h]

/-- At the start the answer is that of the atomic function (R200, R208). -/
theorem startInvocation_answer (c : Config) (pb chunk : Bytes) :
    (startInvocation pb chunk).answer c = decodeChunk c pb chunk :=
  Invocation.answer_of_no_frame rfl

/-- The simulation: a step that goes on does not change what the invocation will answer. -/
theorem Invocation.GoesOn.answer_eq {c : Config} {v u : Invocation} (h : v.GoesOn c u) : u.answer c = v.answer c := by
  cases h with
  | control k hf hb hm =>
    rw [answer_of_no_frame hf, decodeLoop_control (scan_of_marker hb hm), decodeLoop_spend_pass (Nat.succ_pos _)]
    exact answer_of_no_frame hf
  | noise hf hb hm =>
    rw [answer_of_no_frame hf, decodeLoop_noise hb hm]
    exact answer_of_no_frame hf
  | badLength len hf hb hm ha =>
    rw [answer_of_no_frame hf, decodeLoop_badLength (scan_of_marker hb hm) ha, decodeLoop_spend_pass (Nat.succ_pos _)]
    exact answer_of_no_frame hf
  | checksumBad len d k hf hb hm ha =>
    rw [answer_of_no_frame hf, decodeLoop_checksumBad (scan_of_marker hb hm) ha, decodeLoop_spend_pass (by omega),
      Nat.add_assoc]
    exact answer_of_no_frame hf
  | accepted f hf hb hm ha =>
    rw [answer_of_no_frame hf, decodeLoop_ok (scan_of_marker hb hm) ha, decodeLoop_spend_pass (by omega)]
    exact answer_of_frame rfl
  | decoded f hf =>
    rw [answer_of_frame hf, Nat.add_assoc]
    exact answer_of_no_frame rfl

/-- An invocation that ends answers the items emitted so far and the PB it leaves. -/
theorem Invocation.Ends.answer_eq {c : Config} {v : Invocation} {pb : Bytes} (h : v.Ends c pb) :
    v.answer c = (v.out, pb) := by
  cases h with
  | bufferEnd hf hw => rw [answer_of_no_frame hf, decodeLoop_of_scan_none (scan_of_length_le hw)]
  | incomplete hf hb hm ha => rw [answer_of_no_frame hf, decodeLoop_incomplete (scan_of_marker hb hm) ha]

/-! ### The steps of an invocation -/

/-- How many steps the invocation can still take: a byte each and one for the end; a frame in hand takes one for all
its bytes. -/
def Invocation.stepsLeft (v : Invocation) : Nat :=
  match v.frame with
  | none => v.w.length - v.cur + 1
  | some f => v.w.length - (v.cur + (2 + f.declaredLength.toNat)) + 2

theorem Invocation.stepsLeft_of_no_frame {v : Invocation} (h : v.frame = none) :
    v.stepsLeft = v.w.length - v.cur + 1 := by
  simp only [stepsLeft, h]

theorem Invocation.stepsLeft_of_frame {v : Invocation} {f : DataFrame} (h : v.frame = some f) :
    v.stepsLeft = v.w.length - (v.cur + (2 + f.declaredLength.toNat)) + 2 := by
  simp only [stepsLeft, h]

theorem Invocation.stepsLeft_pos (v : Invocation) : 0 < v.stepsLeft := by
  cases hf : v.frame with
  | none => rw [stepsLeft_of_no_frame hf]; omega
  | some f => rw [stepsLeft_of_frame hf]; omega

/-- Bytes consumed inside the buffer are steps saved. -/
theorem Invocation.stepsLeft_lt_of_consumed {v u : Invocation} {b : Byte} (hf : v.frame = none) (hu : u.frame = none)
    (hb : readByte v.w v.cur = some b) (hw : u.w = v.w) (hcur : v.cur < u.cur) : u.stepsLeft < v.stepsLeft := by
  have hin : v.cur < v.w.length := (readByte_isSome v.w v.cur).mp (by rw [hb]; rfl)
  rw [stepsLeft_of_no_frame hf, stepsLeft_of_no_frame hu, hw]
  omega

/-- Every step that goes on leaves fewer (R206). -/
theorem Invocation.GoesOn.stepsLeft_lt {c : Config} {v u : Invocation} (h : v.GoesOn c u) :
    u.stepsLeft < v.stepsLeft := by
  cases h with
  | control k hf hb => exact stepsLeft_lt_of_consumed hf hf hb rfl (by simp)
  | noise hf hb => exact stepsLeft_lt_of_consumed hf hf hb rfl (by simp)
  | badLength len hf hb => exact stepsLeft_lt_of_consumed hf hf hb rfl (by simp)
  | checksumBad len d k hf hb => exact stepsLeft_lt_of_consumed hf hf hb rfl (by simp)
  | accepted f hf hb hm ha =>
    obtain ⟨-, -, hw, -⟩ := assemble_ok ha
    rw [stepsLeft_of_no_frame hf, stepsLeft_of_frame (hand_frame v f), hand_w, hand_cur]
    omega
  | decoded f hf => exact (Nat.lt_succ_self _).trans_eq (stepsLeft_of_frame hf).symm

/-- The state between invocations once the answer is returned (R207). -/
def State.answered (s : State) (r : List Item × Bytes) : State :=
  { s with pb := r.2, inv := none, returned := s.returned ++ [r.1] }

/-- The end of an invocation returns what it has emitted and the PB it leaves. -/
theorem State.finish_eq_answered (s : State) (v : Invocation) (pb : Bytes) :
    s.finish v pb = s.answered (v.out, pb) := rfl

/-- What the invocation holds does not outlast it (R33). -/
theorem State.setInv_answered (s : State) (v : Invocation) (r : List Item × Bytes) :
    (s.setInv v).answered r = s.answered r := rfl

/-- The steps of an invocation in progress return its answer. -/
theorem runSteps_answer {s : State} {v : Invocation} (hok : s.cfg.ok = true) (hv : s.inv = some v) :
    ∃ k, k ≤ v.stepsLeft ∧ runSteps k s = .next (s.answered (v.answer s.cfg)) := by
  induction hn : v.stepsLeft using Nat.strong_induction_on generalizing s v with
  | _ n ih =>
    subst hn
    rcases step_invocation_cases hok hv with ⟨u, hu, hstep⟩ | ⟨pb, hpb, hstep⟩
    · obtain ⟨k, hk, hrun⟩ := ih _ hu.stepsLeft_lt (s := s.setInv u) hok rfl rfl
      rw [State.setInv_answered, State.setInv_cfg, hu.answer_eq] at hrun
      exact ⟨k + 1, hk.trans_lt hu.stepsLeft_lt, (runSteps_succ hstep k).trans hrun⟩
    · refine ⟨1, v.stepsLeft_pos, ?_⟩
      rw [runSteps_succ hstep, runSteps_zero, State.finish_eq_answered, hpb.answer_eq]

/-- A step between invocations takes the next `decode` and starts its invocation (R201). -/
theorem step_decode_call {s : State} {chunk : Bytes} {rest : List Call} (hok : s.cfg.ok = true) (hv : s.inv = none)
    (hc : s.calls = .decode chunk :: rest) :
    step s = .next ({ s with calls := rest }.setInv (startInvocation s.pb chunk)) := by
  have hidle : step s = stepIdle s := by simp [step, hok, hv]
  rw [hidle]
  simpa [hc] using stepIdle_cases hv

/-- The steps of one call, from the call to the end of its invocation, are the atomic function of R208. -/
theorem runSteps_decode {s : State} {chunk : Bytes} {rest : List Call} (hok : s.cfg.ok = true) (hv : s.inv = none)
    (hc : s.calls = .decode chunk :: rest) :
    ∃ k, k ≤ (s.pb ++ chunk).length + 2 ∧
      runSteps k s = .next ({ s with calls := rest }.answered (decodeChunk s.cfg s.pb chunk)) := by
  have hstep := step_decode_call hok hv hc
  obtain ⟨k, hk, hrun⟩ :=
    runSteps_answer (s := { s with calls := rest }.setInv (startInvocation s.pb chunk)) hok rfl
  rw [State.setInv_answered, State.setInv_cfg, startInvocation_answer] at hrun
  exact ⟨k + 1, Nat.succ_le_succ hk, (runSteps_succ hstep k).trans hrun⟩

end Sys2Proof.Machine

namespace Sys2Proof

open Machine

/-- Settles O50, by induction on the chunks: each call is one atomic decode, and the rest of the session starts from
the PB it leaves. -/
theorem sessionRefinesDecodes : Obligations.SessionRefinesDecodes := by
  intro s chunks hok hv hc
  induction chunks generalizing s with
  | nil =>
    refine ⟨0, ?_⟩
    rw [runSteps_zero, itemsPerChunk, List.append_nil, decodeChunks, ← hc.trans List.map_nil]
  | cons chunk rest ih =>
    obtain ⟨j, -, hfirst⟩ := runSteps_decode hok hv (hc.trans List.map_cons)
    obtain ⟨k, hrest⟩ :=
      ih ({ s with calls := rest.map .decode }.answered (decodeChunk s.cfg s.pb chunk)) hok rfl rfl
    refine ⟨j + k, ?_⟩
    rw [runSteps_add j k hfirst, hrest]
    simp [State.answered, decodeChunks, itemsPerChunk, hv]

/-- Settles O41: by the ways one step of an invocation can go on with it or end it. -/
theorem invocationIsAtomicToTheCaller : Obligations.InvocationIsAtomicToTheCaller := by
  intro s t v hv hstep
  rcases step_invocation_cases (cfg_ok_of_step_next hstep) hv with ⟨u, hu, h⟩ | ⟨pb, hpb, h⟩
  · cases h.symm.trans hstep
    exact ⟨rfl, rfl, .inl ⟨u, rfl, rfl, rfl, hu.frame_rule⟩⟩
  · cases h.symm.trans hstep
    exact ⟨rfl, rfl, .inr ⟨rfl, rfl, hpb.pb_cases⟩⟩

end Sys2Proof

/-! The encoding of spec/30_encoding.md: each level of the opcode map determines the bytes of its instruction and is
determined by them (R67, R68), and a written frame is assembled into the fields it was written from (R62, R76). -/

namespace Sys2Proof

open Machine

/-! ### The scan level (R67) -/

theorem decodeMarker_noise {b : Byte} (h : isMarker b = false) : decodeMarker b = .noise b := by
  rw [decodeMarker, markerOf_eq_none.mpr h]

theorem isMarker_eq_false_iff {b : Byte} :
    isMarker b = false ↔ b ≠ 0x06 ∧ b ≠ 0x15 ∧ b ≠ 0x18 ∧ b ≠ 0x01 := by
  simp [isMarker, and_assoc]

theorem decodeMarker_wf (c : Config) (b : Byte) : (decodeMarker b).wf c = true := by
  rcases decodeMarker_cases b with ⟨-, h⟩ | ⟨-, h⟩ | ⟨-, h⟩ | ⟨-, h⟩ | ⟨hb, h⟩ <;> rw [h, Instr.wf]
  rw [hb, Bool.not_false]

theorem encode_decodeMarker (c : Config) (b : Byte) : encode c (decodeMarker b) = [b] := by
  rcases decodeMarker_cases b with ⟨rfl, h⟩ | ⟨rfl, h⟩ | ⟨rfl, h⟩ | ⟨rfl, h⟩ | ⟨-, h⟩ <;> rw [h] <;> rfl

/-- Every well-formed instruction of the scan level is what its byte decodes to. -/
theorem exists_byte_of_scan_level {c : Config} {i : Instr} (hlevel : i.level = .scan) (hwf : i.wf c = true) :
    ∃ b, encode c i = [b] ∧ decodeMarker b = i := by
  cases i with
  | ack => exact ⟨0x06, rfl, rfl⟩
  | nak => exact ⟨0x15, rfl, rfl⟩
  | can => exact ⟨0x18, rfl, rfl⟩
  | sof => exact ⟨0x01, rfl, rfl⟩
  | noise b => exact ⟨b, rfl, decodeMarker_noise (by simpa [Instr.wf] using hwf)⟩
  | _ => cases hlevel

/-! ### The rows of the second-level map (R68) -/

/-- The dispatch key of a row (R65). -/
def KeyRow.key (r : KeyRow) : Byte × Byte := (r.direction, r.functionCode)

/-- The keys of the rows are the Response codes and the Request codes, each under its direction byte. -/
theorem keyRows_keys_perm (c : Config) :
    ((keyRows c).map KeyRow.key).Perm
      (c.responseCodes.map (Prod.mk dirResponse) ++ c.requestCodes.map (Prod.mk dirRequest)) := by
  have split := (List.filter_append_perm (fun r => r.direction == dirResponse) (keyRows c)).symm.map KeyRow.key
  rwa [List.map_append] at split

/-- R8(b) and R8(c) are what keeps the keys of the rows apart. -/
theorem keyRows_keys_nodup {c : Config} (hok : c.ok = true) : ((keyRows c).map KeyRow.key).Nodup := by
  obtain ⟨-, hresponse, hrequest, -⟩ := Config.ok_iff.mp hok
  refine (keyRows_keys_perm c).nodup_iff.mpr (List.nodup_append'.mpr ⟨?_, ?_, ?_⟩)
  · exact List.Nodup.map (Prod.mk_right_injective _) (Config.responseCodesOk_iff.mp hresponse)
  · exact List.Nodup.map (Prod.mk_right_injective _) (Config.requestCodesOk_iff.mp hrequest)
  · simp [List.disjoint_left, dirResponse, dirRequest]

theorem knownKey_iff {c : Config} {d f : Byte} :
    c.knownKey d f = true ↔ ∃ r ∈ keyRows c, r.direction = d ∧ r.functionCode = f := by
  have hmem : (d, f) ∈ (keyRows c).map KeyRow.key ↔ _ := (keyRows_keys_perm c).mem_iff
  simpa [KeyRow.key, Config.knownKey, dirResponse, dirRequest, eq_comm (a := d), and_comm] using hmem.symm

/-- The word of a row's instruction is the row's key (R65, R68). -/
theorem keyRows_encode {c : Config} : ∀ r ∈ keyRows c, encode c r.instr = [r.direction, r.functionCode] := by
  simp [keyRows, encode]

theorem keyRows_wf {c : Config} : ∀ r ∈ keyRows c, r.instr.wf c = true := by
  simp [keyRows, Instr.wf]

/-- Every instruction of the key level but OPAQUE has a row. -/
theorem exists_keyRow_or_opaque (c : Config) {i : Instr} (hlevel : i.level = .key) :
    (∃ r ∈ keyRows c, r.instr = i) ∨ ∃ d f, i = .opaqueKey d f := by
  cases i with
  | opaqueKey d f => exact .inr ⟨d, f, rfl⟩
  | ack | nak | can | sof | noise => cases hlevel
  | _ => exact .inl (by simp [keyRows])

/-! ### The key level -/

/-- A key without a row is Opaque (R162). -/
theorem decodeKey_of_unknown {c : Config} {d f : Byte} (h : c.knownKey d f = false) :
    decodeKey c d f = .opaqueKey d f := by
  rcases decodeKey_cases c d f with ⟨r, hr, hd, hf, -⟩ | ⟨-, hopaque⟩
  · simp [knownKey_iff.mpr ⟨r, hr, hd, hf⟩] at h
  · exact hopaque

/-- The key of a row selects that row and no other (R141). -/
theorem decodeKey_of_row {c : Config} (hok : c.ok = true) :
    ∀ r ∈ keyRows c, decodeKey c r.direction r.functionCode = r.instr := by
  intro r hr
  rcases decodeKey_cases c r.direction r.functionCode with ⟨r', hr', hd, hf, h⟩ | ⟨hnone, -⟩
  · have hsame : r' = r := List.inj_on_of_nodup_map (keyRows_keys_nodup hok) hr' hr (Prod.ext hd hf)
    rw [h, hsame]
  · exact absurd ⟨rfl, rfl⟩ (hnone r hr)

theorem decodeKey_wf (c : Config) (d f : Byte) : (decodeKey c d f).wf c = true := by
  rcases decodeKey_cases c d f with ⟨r, hr, -, -, h⟩ | ⟨hnone, h⟩ <;> rw [h]
  · exact keyRows_wf r hr
  · have hunknown : ¬ c.knownKey d f = true := fun hk =>
      let ⟨r, hr, hkey⟩ := knownKey_iff.mp hk
      hnone r hr hkey
    simpa [Instr.wf] using hunknown

theorem encode_decodeKey (c : Config) (d f : Byte) : encode c (decodeKey c d f) = [d, f] := by
  rcases decodeKey_cases c d f with ⟨r, hr, rfl, rfl, h⟩ | ⟨-, h⟩ <;> rw [h]
  · exact keyRows_encode r hr
  · rfl

/-- Every well-formed instruction of the key level is what its key decodes to. -/
theorem exists_key_of_key_level {c : Config} {i : Instr} (hok : c.ok = true) (hlevel : i.level = .key)
    (hwf : i.wf c = true) : ∃ d f, encode c i = [d, f] ∧ decodeKey c d f = i := by
  rcases exists_keyRow_or_opaque c hlevel with ⟨r, hr, rfl⟩ | ⟨d, f, rfl⟩
  · exact ⟨_, _, keyRows_encode r hr, decodeKey_of_row hok r hr⟩
  · exact ⟨d, f, rfl, decodeKey_of_unknown (by simpa [Instr.wf] using hwf)⟩

/-! ### The decoder -/

theorem decode_scan_eq_ok_iff {c : Config} {bytes rest : Bytes} {i : Instr} :
    decode c .scan bytes = .ok (i, rest) ↔ ∃ b, bytes = b :: rest ∧ decodeMarker b = i := by
  cases bytes with
  | nil => simp [decode]
  | cons b tail => simp [decode, and_comm]

theorem decode_key_eq_ok_iff {c : Config} {bytes rest : Bytes} {i : Instr} :
    decode c .key bytes = .ok (i, rest) ↔ ∃ d f, bytes = d :: f :: rest ∧ decodeKey c d f = i := by
  match bytes with
  | [] => simp [decode]
  | [_] => simp [decode]
  | d :: f :: tail => simp [decode, and_comm, and_assoc]

/-- Settles O1: at either level an instruction is what its own word decodes to. -/
theorem decodeEncodeAgree : Obligations.DecodeEncodeAgree := by
  intro c i rest hok hwf
  cases hlevel : i.level with
  | scan =>
    obtain ⟨b, hencode, hdecode⟩ := exists_byte_of_scan_level hlevel hwf
    exact decode_scan_eq_ok_iff.mpr ⟨b, by rw [hencode]; rfl, hdecode⟩
  | key =>
    obtain ⟨d, f, hencode, hdecode⟩ := exists_key_of_key_level hok hlevel hwf
    exact decode_key_eq_ok_iff.mpr ⟨d, f, by rw [hencode]; rfl, hdecode⟩

/-- Settles O2: at either level by what the bytes read there decode to. -/
theorem decodedBytesAreItsEncoding : Obligations.DecodedBytesAreItsEncoding := by
  intro c level bytes rest i h
  cases level with
  | scan =>
    obtain ⟨b, rfl, rfl⟩ := decode_scan_eq_ok_iff.mp h
    exact ⟨decodeMarker_level b, decodeMarker_wf c b, by rw [encode_decodeMarker]; rfl⟩
  | key =>
    obtain ⟨d, f, rfl, rfl⟩ := decode_key_eq_ok_iff.mp h
    exact ⟨decodeKey_level c d f, decodeKey_wf c d f, by rw [encode_decodeKey]; rfl⟩

/-- Settles O4: the eleven keys are those of the rows, and a key in neither list of codes has no row. -/
theorem keySelectsMessageRule : Obligations.KeySelectsMessageRule := by
  refine ⟨fun c hok => ?_, fun c d f hresponse hrequest => decodeKey_of_unknown ?_, by decide⟩
  · simpa [keyRows, dirResponse, dirRequest] using decodeKey_of_row hok
  · have hunknown : ¬ ((d = 0x01 ∧ f ∈ c.responseCodes) ∨ (d = 0x00 ∧ f ∈ c.requestCodes)) := by
      rintro (⟨hd, hf⟩ | ⟨hd, hf⟩)
      · exact hresponse hd hf
      · exact hrequest hd hf
    simpa [Config.knownKey] using hunknown

/-- A scan-level instruction is fetched with no frame in hand: a frame's key selects one of the key level (R140). -/
theorem nextInstr_scan_level {c : Config} {v : Invocation} {i : Instr} (h : v.nextInstr c = some i)
    (hlevel : i.level = .scan) : v.frame = none ∧ ∃ b, readByte v.w v.cur = some b ∧ i = decodeMarker b := by
  cases hf : v.frame with
  | none =>
    rw [nextInstr_scan c hf] at h
    obtain ⟨b, hb, hi⟩ := Option.map_eq_some_iff.mp h
    exact ⟨rfl, b, hb, hi.symm⟩
  | some f =>
    rw [nextInstr_key c hf] at h
    cases h
    rw [decodeKey_level] at hlevel
    cases hlevel

/-- Settles O3: the four marker bytes, any other byte, and where a scan-level instruction is read. -/
theorem firstByteSelectsInstruction : Obligations.FirstByteSelectsInstruction :=
  ⟨rfl, rfl, rfl, rfl,
    fun _ hsof hack hnak hcan => decodeMarker_noise (isMarker_eq_false_iff.mpr ⟨hack, hnak, hcan, hsof⟩),
    fun _ _ _ => rfl, fun _ _ _ h hlevel => nextInstr_scan_level h hlevel⟩

/-- Settles O5: each word by evaluation of the decoder under the defaults. -/
theorem tableWordsDecode : Obligations.TableWordsDecode := by
  refine ⟨?_, ?_, ?_, ?_, ?_, ?_, ?_⟩ <;> rfl

end Sys2Proof

/-! ### Written frames (R62, R76) -/

namespace Sys2Proof.Machine

/-- The bytes of a frame that its LEN byte counts and its checksum covers: LEN to the last payload byte (R62, R76). -/
def frameBody (d f : Byte) (p : Bytes) : Bytes := BitVec.ofNat 8 (p.length + 3) :: d :: f :: p

theorem frameBytes_eq (d f : Byte) (p : Bytes) :
    frameBytes d f p = 0x01 :: (frameBody d f p ++ [compute (frameBody d f p)]) := rfl

@[simp] theorem length_frameBody (d f : Byte) (p : Bytes) : (frameBody d f p).length = p.length + 3 := rfl

/-- A length up to 255 fits in the LEN byte without wrapping (R63). -/
theorem toNat_lenByte {n : Nat} (h : n + 3 ≤ 255) : (BitVec.ofNat 8 (n + 3)).toNat = n + 3 := by
  rw [BitVec.toNat_ofNat]
  omega

/-! ### Where a frame stands in the buffer -/

/-- A slice that spans exactly the bytes `mid` reads them. -/
theorem memRead_between (before mid after : Bytes) :
    memRead (before ++ (mid ++ after)) before.length mid.length = mid := by
  simp [memRead]

/-- A byte standing right behind `before` is read there. -/
theorem readByte_between (before : Bytes) (b : Byte) (after : Bytes) :
    readByte (before ++ b :: after) before.length = some b := by
  simp [readByte]

theorem judgeComplete_append_right (before w : Bytes) (s : Nat) (len : Byte) :
    judgeComplete (before ++ w) (before.length + s) len = judgeComplete w s len := by
  simp only [judgeComplete, Nat.add_assoc, readByte_append_right, memRead_append_right]

/-- The assembler does not see the bytes before the frame it judges. -/
theorem assemble_append_right (c : Config) (before w : Bytes) (s : Nat) :
    assemble c (before ++ w) (before.length + s) = assemble c w s := by
  simp only [assemble, Nat.add_assoc, readByte_append_right, List.length_append, Nat.add_sub_add_left,
    judgeComplete_append_right]

section WrittenFrame

variable {d f : Byte} {p behind : Bytes}

/-- The bytes that LEN counts, from its own position on, are the body (R62). -/
theorem memRead_body : memRead (frameBytes d f p ++ behind) 1 (p.length + 3) = frameBody d f p := by
  rw [frameBytes_eq, ← length_frameBody d f p, List.cons_append, List.append_assoc]
  exact memRead_between [0x01] _ _

theorem readByte_checksum :
    readByte (frameBytes d f p ++ behind) (1 + (p.length + 3)) = some (compute (frameBody d f p)) := by
  rw [frameBytes_eq, ← length_frameBody d f p, List.cons_append, List.append_assoc]
  exact (readByte_append_right [0x01] _ _).trans (readByte_between _ _ _)

theorem memRead_payload : memRead (frameBytes d f p ++ behind) 4 p.length = p := by
  rw [frameBytes_eq, List.cons_append, List.append_assoc]
  exact memRead_between [0x01, BitVec.ofNat 8 (p.length + 3), d, f] _ _

theorem length_frameBytes : (frameBytes d f p).length = p.length + 5 := by
  simp [frameBytes_eq]

/-- A written frame is judged valid (R126): each field is read where it was written. -/
theorem judgeComplete_frameBytes (hp : p.length + 3 ≤ 255) :
    judgeComplete (frameBytes d f p ++ behind) 0 (BitVec.ofNat 8 (p.length + 3)) =
      .ok ⟨d, f, p, BitVec.ofNat 8 (p.length + 3)⟩ := by
  have hdirection : readByte (frameBytes d f p ++ behind) (0 + 2) = some d := rfl
  have hcode : readByte (frameBytes d f p ++ behind) (0 + 3) = some f := rfl
  simp only [judgeComplete, hdirection, hcode, toNat_lenByte hp, Nat.zero_add, readByte_checksum, memRead_body,
    Nat.add_sub_cancel, memRead_payload, validate, beq_self_eq_true, if_true]

/-- A written frame that fits MAX_LEN is complete and of legal length, whatever stands behind it (R128). -/
theorem assemble_frameBytes {c : Config} (hmax : c.maxLen ≤ 255) (hp : p.length + 3 ≤ c.maxLen) :
    assemble c (frameBytes d f p ++ behind) 0 = .ok ⟨d, f, p, BitVec.ofNat 8 (p.length + 3)⟩ := by
  have hlen := toNat_lenByte (hp.trans hmax)
  have hread : readByte (frameBytes d f p ++ behind) (0 + 1) = some (BitVec.ofNat 8 (p.length + 3)) := rfl
  have hlegal : lenLegal c (BitVec.ofNat 8 (p.length + 3)) = true := lenLegal_iff.mpr (by omega)
  have hcomplete : ¬ (frameBytes d f p ++ behind).length - 0 < 2 + (BitVec.ofNat 8 (p.length + 3)).toNat := by
    rw [List.length_append, length_frameBytes]
    omega
  rw [assemble, hread]
  simp only [hlegal, hcomplete, Bool.not_true, Bool.false_eq_true, if_false, judgeComplete_frameBytes (hp.trans hmax)]

end WrittenFrame

/-! ### The expansion of the elements (R76) -/

@[simp] theorem flatMap_bytes_hex (p : Bytes) : (p.map PayloadPart.hex).flatMap PayloadPart.bytes = p := by
  simp [List.flatMap_map, PayloadPart.bytes]

theorem expand_frame_hex (d f : Byte) (p : Bytes) :
    StreamElem.expand (.frame d f (p.map .hex)) = frameBytes d f p := by
  rw [StreamElem.expand, flatMap_bytes_hex]

theorem expand_rawFrame_hex (l d f k : Byte) (p : Bytes) :
    StreamElem.expand (.rawFrame l d f (p.map .hex) k) = [0x01, l, d, f] ++ p ++ [k] := by
  rw [StreamElem.expand, flatMap_bytes_hex]
  rfl

end Sys2Proof.Machine

namespace Sys2Proof

open Machine

/-- Settles O6: the bytes before the frame are not seen, and R8(a) keeps the LEN byte from wrapping. -/
theorem writtenFrameIsAssembled : Obligations.WrittenFrameIsAssembled := by
  intro c d f p before behind hok hp
  obtain ⟨hlengths, -⟩ := Config.ok_iff.mp hok
  obtain ⟨-, -, hmax⟩ := Config.lengthsOk_iff.mp hlengths
  rw [List.append_assoc]
  exact (assemble_append_right c before _ 0).trans (assemble_frameBytes hmax hp)

/-- Settles O7: LEN and checksum of `FRAME` are those of the written frame, the fold of R100 taken over the three
bytes before the payload first. -/
theorem notationExpansion : Obligations.NotationExpansion := by
  refine ⟨rfl, rfl, rfl, fun _ => rfl, fun d f p hp => ?_, fun l d f k p => expand_rawFrame_hex l d f k p⟩
  exact ⟨BitVec.ofNat 8 (p.length + 3), compute (frameBody d f p), toNat_lenByte (by omega), rfl,
    (expand_frame_hex d f p).trans (frameBytes_eq d f p)⟩

end Sys2Proof

/-! ### The Checksum Unit (R100, R101) -/

namespace Sys2Proof.Machine

theorem compute_append_singleton (s : Bytes) (b : Byte) : compute (s ++ [b]) = compute s ^^^ b :=
  List.foldl_concat ..

theorem compute_append_self (s : Bytes) : compute (s ++ [compute s]) = 0x00 := by
  rw [compute_append_singleton]
  exact BitVec.xor_self

/-- The order of the bytes is free because `⊕` is associative and commutative (R100). -/
theorem compute_perm {s t : Bytes} (h : s.Perm t) : compute s = compute t :=
  h.foldl_eq (f := fun a b => a ^^^ b) 0xFF

/-- A byte counts the same wherever it stands: it can be moved to the end. -/
theorem compute_insert (pre post : Bytes) (x : Byte) :
    compute (pre ++ [x] ++ post) = compute (pre ++ post) ^^^ x := by
  have hmove : (pre ++ [x] ++ post).Perm (pre ++ post ++ [x]) := by
    rw [List.append_assoc, List.append_assoc]
    exact List.perm_append_comm.append_left pre
  rw [compute_perm hmove, compute_append_singleton]

/-- Two bytes of a sequence enter its checksum only through their own XOR. -/
theorem compute_insert_two (pre mid post : Bytes) (x y : Byte) :
    compute (pre ++ [x] ++ mid ++ [y] ++ post) = compute (pre ++ mid ++ post) ^^^ (x ^^^ y) := by
  rw [compute_insert (pre ++ [x] ++ mid) post y, List.append_assoc (pre ++ [x]), compute_insert pre,
    ← List.append_assoc, BitVec.xor_assoc]

theorem compute_insert_inj {pre post : Bytes} {x y : Byte} :
    compute (pre ++ [x] ++ post) = compute (pre ++ [y] ++ post) ↔ x = y := by
  rw [compute_insert, compute_insert, BitVec.xor_right_inj]

/-- The same bits flipped in both operands of `⊕` cancel. -/
theorem xor_flip_both (x y flip : Byte) : (x ^^^ flip) ^^^ (y ^^^ flip) = x ^^^ y := by
  rw [BitVec.xor_comm y, BitVec.xor_assoc, ← BitVec.xor_assoc flip, BitVec.xor_self, BitVec.zero_xor]

theorem validate_iff {s : Bytes} {k : Byte} : validate s k = true ↔ compute s = k :=
  beq_iff_eq

theorem validate_eq_false_iff {s : Bytes} {k : Byte} : validate s k = false ↔ compute s ≠ k :=
  beq_eq_false_iff_ne

end Sys2Proof.Machine

namespace Sys2Proof

open Machine

/-- Settles O8: a byte that appears twice enters as `x ⊕ x`, which is zero. -/
theorem checksumFold : Obligations.ChecksumFold := by
  refine ⟨rfl, compute_append_singleton, fun _ _ => compute_perm, fun x pre mid post => ?_, compute_append_self,
    by decide⟩
  rw [compute_insert_two, BitVec.xor_self, BitVec.xor_zero]

/-- Settles O9: one corrupted byte changes one operand of `⊕` and so the checksum; two corruptions by the same bits
leave the XOR of the two bytes as it was. -/
theorem checksumDetectsOneCorruption : Obligations.ChecksumDetectsOneCorruption := by
  refine ⟨fun _ _ => validate_iff, fun s => ?unique, fun s k k' hk hne => ?checksumByte,
    fun pre post x y k hk hne => ?sequenceByte, fun pre mid post x y flip k hk => ?cancels, by decide⟩
  case unique => exact ⟨compute s, validate_iff.mpr rfl, fun _ hk => (validate_iff.mp hk).symm⟩
  case checksumByte =>
    rw [validate_eq_false_iff, validate_iff.mp hk]
    exact hne.symm
  case sequenceByte =>
    rw [validate_eq_false_iff, ← validate_iff.mp hk]
    exact fun heq => hne (compute_insert_inj.mp heq)
  case cancels =>
    rw [validate_iff, compute_insert_two] at hk ⊢
    rw [xor_flip_both, hk]

end Sys2Proof

/-! The scanner and the control frames of spec/41_scanner_control.md: the scan as the first marker (R110, R111), a
chunk read byte by byte (R112 to R116), and what the scan-level instructions leave unchanged. -/

namespace Sys2Proof

theorem isMarker_iff {b : Byte} : isMarker b = true ↔ b = 0x06 ∨ b = 0x15 ∨ b = 0x18 ∨ b = 0x01 := by
  simp [isMarker, or_assoc]

/-- Every marker has a kind (R110, R111). -/
theorem exists_markerOf_of_isMarker {b : Byte} (h : isMarker b = true) : ∃ k, markerOf b = some k := by
  cases hm : markerOf b with
  | none => simp [markerOf_eq_none.mp hm] at h
  | some k => exact ⟨k, rfl⟩

/-- A byte is read as NOISE exactly when it is no marker, and NOISE names the byte it is (R67, R112). -/
theorem decodeMarker_eq_noise_iff {b x : Byte} : decodeMarker b = .noise x ↔ b = x ∧ isMarker b = false := by
  constructor
  · intro h
    rcases decodeMarker_cases b with ⟨-, h'⟩ | ⟨-, h'⟩ | ⟨-, h'⟩ | ⟨-, h'⟩ | ⟨hb, h'⟩ <;> cases h'.symm.trans h
    exact ⟨rfl, hb⟩
  · rintro ⟨rfl, hb⟩
    exact decodeMarker_noise hb

end Sys2Proof

namespace Sys2Proof.Machine

/-! ### The first marker (R111) -/

/-- A marker of kind `k` stands at `i`, and only noise before it from `start` on (R111). -/
def FirstMarkerAt (w : Bytes) (start i : Nat) (k : Marker) : Prop :=
  start ≤ i ∧ (∃ b, readByte w i = some b ∧ markerOf b = some k) ∧
    ∀ j b, start ≤ j → j < i → readByte w j = some b → isMarker b = false

/-- No marker stands at `start` or after it. -/
def NoMarkerFrom (w : Bytes) (start : Nat) : Prop :=
  ∀ j b, start ≤ j → readByte w j = some b → isMarker b = false

/-- If there is a marker, one of them comes first. -/
theorem noMarkerFrom_or_firstMarkerAt (w : Bytes) (start : Nat) :
    NoMarkerFrom w start ∨ ∃ i k, FirstMarkerAt w start i k := by
  classical
  by_cases h : ∃ i, start ≤ i ∧ ∃ b, readByte w i = some b ∧ isMarker b = true
  · obtain ⟨hi, b, hb, hmarker⟩ := Nat.find_spec h
    obtain ⟨k, hk⟩ := exists_markerOf_of_isMarker hmarker
    exact .inr ⟨Nat.find h, k, hi, ⟨b, hb, hk⟩, fun j b hj hlt hb => by
      simpa [hj, hb] using Nat.find_min h hlt⟩
  · exact .inl fun j b hj hb => Bool.eq_false_iff.mpr fun hmarker => h ⟨j, hj, b, hb, hmarker⟩

/-- `scan` moves past an index that holds no marker, inside the buffer or behind it. -/
theorem scan_succ_of_no_marker {w : Bytes} {i : Nat} (h : ∀ b, readByte w i = some b → isMarker b = false) :
    scan w i = scan w (i + 1) := by
  cases hb : readByte w i with
  | none =>
    have hi : w.length ≤ i := (readByte_eq_none w i).mp hb
    rw [scan_of_length_le hi, scan_of_length_le (hi.trans (Nat.le_succ i))]
  | some b => exact scan_of_noise hb (markerOf_eq_none.mpr (h b hb))

/-- `scan` passes over noise (R112). -/
theorem scan_skip_noise {w : Bytes} {start i : Nat} (hi : start ≤ i)
    (hnoise : ∀ j b, start ≤ j → j < i → readByte w j = some b → isMarker b = false) :
    scan w start = scan w i := by
  induction i, hi using Nat.le_induction with
  | base => rfl
  | succ i hi ih =>
    calc scan w start = scan w i := ih fun j b hj hlt => hnoise j b hj (Nat.lt_succ_of_lt hlt)
      _ = scan w (i + 1) := scan_succ_of_no_marker fun b => hnoise i b hi (Nat.lt_succ_self i)

theorem FirstMarkerAt.scan_eq {w : Bytes} {start i : Nat} {k : Marker} (h : FirstMarkerAt w start i k) :
    scan w start = some (i, k) := by
  obtain ⟨hi, ⟨b, hb, hk⟩, hnoise⟩ := h
  rw [scan_skip_noise hi hnoise, scan_of_marker hb hk]

theorem NoMarkerFrom.scan_eq {w : Bytes} {start : Nat} (h : NoMarkerFrom w start) : scan w start = none := by
  rw [scan_skip_noise (Nat.le_add_right start w.length) fun j b hj _ => h j b hj]
  exact scan_of_length_le (Nat.le_add_left _ _)

theorem scan_eq_none_iff {w : Bytes} {start : Nat} : scan w start = none ↔ NoMarkerFrom w start := by
  refine ⟨fun h => ?_, NoMarkerFrom.scan_eq⟩
  rcases noMarkerFrom_or_firstMarkerAt w start with hnone | ⟨i, k, hfirst⟩
  · exact hnone
  · cases h.symm.trans hfirst.scan_eq

theorem scan_eq_some_iff {w : Bytes} {start i : Nat} {k : Marker} :
    scan w start = some (i, k) ↔ FirstMarkerAt w start i k := by
  refine ⟨fun h => ?_, FirstMarkerAt.scan_eq⟩
  rcases noMarkerFrom_or_firstMarkerAt w start with hnone | ⟨i', k', hfirst⟩
  · cases h.symm.trans hnone.scan_eq
  · cases h.symm.trans hfirst.scan_eq
    exact hfirst

/-! ### A chunk, byte by byte

With PB empty the first byte of a chunk, when it is noise or a control byte, is dealt with alone: the bytes after it
are decoded as if they were the whole chunk. -/

/-- The loop does not see the bytes before its cursor. -/
theorem decodeLoop_append_right (c : Config) (before w : Bytes) (passes cur : Nat) (out : List Item) :
    decodeLoop c (before ++ w) passes (before.length + cur) out = decodeLoop c w passes cur out := by
  induction passes generalizing cur out with
  | zero => rfl
  | succ n ih =>
    have hscan := scan_append_right before w cur
    have hassemble := assemble_append_right c before w
    cases hs : scan w cur with
    | none => rw [decodeLoop_of_scan_none hs, decodeLoop_of_scan_none (by rw [hscan, hs]; rfl)]
    | some r =>
      obtain ⟨i, k⟩ := r
      have hs' : scan (before ++ w) (before.length + cur) = some (before.length + i, k) := by
        rw [hscan, hs, Option.map_some, Nat.add_comm]
      have control : ∀ ctl : CtlKind, k = ctl.marker →
          decodeLoop c (before ++ w) (n + 1) (before.length + cur) out = decodeLoop c w (n + 1) cur out := by
        rintro ctl rfl
        rw [decodeLoop_control hs', decodeLoop_control hs, Nat.add_assoc, ih]
      cases k with
      | ack => exact control .ack rfl
      | nak => exact control .nak rfl
      | can => exact control .can rfl
      | sof =>
        cases ha : assemble c w i with
        | incomplete =>
          rw [decodeLoop_incomplete hs' ((hassemble i).trans ha), decodeLoop_incomplete hs ha, List.drop_append]
          simp
        | badLength len =>
          rw [decodeLoop_badLength hs' ((hassemble i).trans ha), decodeLoop_badLength hs ha, Nat.add_assoc, ih]
        | checksumBad len declared computed =>
          rw [decodeLoop_checksumBad hs' ((hassemble i).trans ha), decodeLoop_checksumBad hs ha, Nat.add_assoc,
            Nat.add_assoc, ih, Nat.add_assoc]
        | ok f =>
          rw [decodeLoop_ok hs' ((hassemble i).trans ha), decodeLoop_ok hs ha, Nat.add_assoc, Nat.add_assoc, ih,
            Nat.add_assoc]

/-- The atomic function on an empty PB is the loop over the chunk (R208). -/
theorem decodeChunk_of_empty_pb (c : Config) (chunk : Bytes) :
    decodeChunk c [] chunk = decodeLoop c chunk (chunk.length + 1) 0 [] := rfl

@[simp] theorem decodeChunk_nil (c : Config) : decodeChunk c [] [] = ([], []) := rfl

/-- A noise byte is consumed without a trace (R112). -/
theorem decodeChunk_cons_noise (c : Config) {b : Byte} (hb : isMarker b = false) (rest : Bytes) :
    decodeChunk c [] (b :: rest) = decodeChunk c [] rest := by
  calc decodeChunk c [] (b :: rest)
      = decodeLoop c ([b] ++ rest) (rest.length + 2) ([b].length + 0) [] :=
        decodeLoop_noise (b := b) rfl (markerOf_eq_none.mpr hb) _ _
    _ = decodeLoop c rest (rest.length + 2) 0 [] := decodeLoop_append_right c [b] rest _ _ _
    _ = decodeChunk c [] rest := by
        rw [decodeChunk_of_empty_pb]
        exact decodeLoop_passes_irrelevant (by omega) (by omega) _

/-- A control byte gives its item and is consumed (R114 to R116, R204). -/
theorem decodeChunk_cons_control (c : Config) {b : Byte} {k : CtlKind} (hb : markerOf b = some k.marker)
    (rest : Bytes) :
    decodeChunk c [] (b :: rest) = (.ctl k :: (decodeChunk c [] rest).1, (decodeChunk c [] rest).2) := by
  have hscan : scan (b :: rest) 0 = some (0, k.marker) := scan_of_marker rfl hb
  calc decodeChunk c [] (b :: rest)
      = decodeLoop c ([b] ++ rest) (rest.length + 1) ([b].length + 0) [.ctl k] := decodeLoop_control hscan _ _
    _ = decodeLoop c rest (rest.length + 1) 0 [.ctl k] := decodeLoop_append_right c [b] rest _ _ _
    _ = (.ctl k :: (decodeChunk c [] rest).1, (decodeChunk c [] rest).2) := decodeLoop_out ..

/-- A run of noise before any bytes changes nothing (R112, R113). -/
theorem decodeChunk_noise_append (c : Config) {noise : Bytes} (h : isNoise noise = true) (rest : Bytes) :
    decodeChunk c [] (noise ++ rest) = decodeChunk c [] rest := by
  induction noise with
  | nil => rfl
  | cons b noise ih =>
    have hsplit : isMarker b = false ∧ isNoise noise = true := by simpa [isNoise] using h
    obtain ⟨hb, hnoise⟩ := hsplit
    rw [List.cons_append, decodeChunk_cons_noise c hb, ih hnoise]

/-! ### The scan-level meanings -/

/-- What a control meaning answers during an invocation (R204). -/
theorem execControl_eq {s : State} {v : Invocation} (hv : s.inv = some v) (k : CtlKind) :
    execControl k s = .next { s with inv := some (v.after (.ctl k) 1) } :=
  withInvocation_some hv _

/-- What NOISE answers during an invocation (R112). -/
theorem execNoise_eq {s : State} {v : Invocation} (hv : s.inv = some v) (b : Byte) :
    execNoise b s = .next { s with inv := some { v with cur := v.cur + 1 } } :=
  withInvocation_some hv _

/-- ACK, NAK, CAN and NOISE write the cursor and at most the output. -/
theorem exec_control_or_noise_next {i : Instr} {s t : State}
    (hi : i = .ack ∨ i = .nak ∨ i = .can ∨ ∃ b, i = .noise b) (h : exec i s = .next t) :
    ∃ v out, s.inv = some v ∧ t = s.setInv { v with cur := v.cur + 1, out := out } := by
  have control : ∀ k, execControl k s = .next t →
      ∃ v out, s.inv = some v ∧ t = s.setInv { v with cur := v.cur + 1, out := out } := fun k hk =>
    let ⟨v, hv, ht⟩ := execControl_next hk
    ⟨v, _, hv, ht⟩
  rcases hi with rfl | rfl | rfl | ⟨b, rfl⟩
  · exact control .ack h
  · exact control .nak h
  · exact control .can h
  · obtain ⟨v, hv, ht⟩ := execNoise_next (b := b) h
    exact ⟨v, v.out, hv, ht⟩

/-- SOF either goes on with the same working buffer, or ends the invocation on an incomplete frame (R205, R207). -/
theorem execSof_goes_on_or_ends {s t : State} (h : execSof s = .next t) :
    ∃ v, s.inv = some v ∧
      ((∃ u, t = s.setInv u ∧ u.w = v.w) ∨
        (assemble s.cfg v.w v.cur = .incomplete ∧ t = s.finish v (v.w.drop v.cur))) := by
  obtain ⟨v, hv, hends | ⟨len, -, ht⟩ | ⟨len, d, k, -, ht⟩ | ⟨f, -, ht⟩⟩ := execSof_next h
  · exact ⟨v, hv, .inr hends⟩
  · exact ⟨v, hv, .inl ⟨_, ht, rfl⟩⟩
  · exact ⟨v, hv, .inl ⟨_, ht, rfl⟩⟩
  · exact ⟨v, hv, .inl ⟨_, ht, rfl⟩⟩

end Sys2Proof.Machine

namespace Sys2Proof

open Machine

/-- Settles O10: `scan` passes over noise, and if there is a marker one comes first. -/
theorem scanFindsFirstMarker : Obligations.ScanFindsFirstMarker :=
  ⟨fun _ => isMarker_iff,
    fun _ => ⟨markerOf_eq_ack, markerOf_eq_nak, markerOf_eq_can, markerOf_eq_sof⟩,
    fun _ _ => scan_eq_none_iff, fun _ _ _ _ => scan_eq_some_iff⟩

/-- Settles O17: the meaning of NOISE, a run of noise by induction on its bytes, and where NOISE is fetched. -/
theorem noiseCompletes : Obligations.NoiseCompletes := by
  refine ⟨fun _ _ b hv => execNoise_eq hv b,
    fun c noise rest hnoise => ⟨decodeChunk_noise_append c hnoise rest, ?alone⟩, fun c v b h => ?fetched⟩
  case alone =>
    simpa using decodeChunk_noise_append c hnoise []
  case fetched =>
    obtain ⟨hframe, x, hx, hdecode⟩ := nextInstr_scan_level h rfl
    obtain ⟨rfl, hb⟩ := decodeMarker_eq_noise_iff.mp hdecode.symm
    exact ⟨hframe, hx, hb⟩

/-- Settles O31: these meanings write the invocation's cursor and output alone. -/
theorem controlAndNoiseFrame : Obligations.ControlAndNoiseFrame := by
  intro i s t hi h
  obtain ⟨v, out, hv, rfl⟩ := exec_control_or_noise_next hi h
  exact ⟨rfl, rfl, rfl, rfl, v, _, hv, rfl, rfl, rfl, rfl, fun _ => rfl⟩

/-- Settles O32: by whether SOF goes on with the invocation or ends it. -/
theorem sofFrame : Obligations.SofFrame := by
  intro s t h
  obtain ⟨v, hv, ⟨u, rfl, hw⟩ | ⟨hincomplete, rfl⟩⟩ := execSof_goes_on_or_ends h
  · exact ⟨rfl, rfl, v, hv, .inl ⟨u, rfl, rfl, rfl, congrArg List.length hw, fun a => congrArg (readByte · a) hw⟩⟩
  · exact ⟨rfl, rfl, v, hv, .inr ⟨hincomplete, rfl, rfl, rfl⟩⟩

/-- Settles O16: the three meanings are the shared one, and a chunk of control bytes is read byte by byte. -/
theorem controlFramesComplete : Obligations.ControlFramesComplete := by
  refine ⟨rfl, rfl, rfl, fun s v hv => ⟨execControl_eq hv .ack, execControl_eq hv .nak, execControl_eq hv .can⟩,
    fun c => ⟨?ack, ?nak, ?canTwice⟩⟩
  case ack => exact decodeChunk_cons_control c (k := .ack) rfl []
  case nak => exact decodeChunk_cons_control c (k := .nak) rfl []
  case canTwice =>
    rw [decodeChunk_cons_control c (k := .can) rfl, decodeChunk_cons_control c (k := .can) rfl, decodeChunk_nil]

end Sys2Proof

/-! The assembler on the bytes from a SOF on (spec/42_assembler.md, R120 to R128): its outcome as an equation in the
length byte and the bytes behind it. -/

namespace Sys2Proof.Machine

theorem lenLegal_eq_false_iff {c : Config} {len : Byte} :
    lenLegal c len = false ↔ len.toNat < 3 ∨ c.maxLen < len.toNat := by
  rw [← Bool.not_eq_true, lenLegal_iff]
  omega

/-- A SOF with nothing behind it has no length byte (R121). -/
theorem assemble_sof_alone (c : Config) (b : Byte) : assemble c [b] 0 = .incomplete := rfl

/-- Behind a SOF and a length byte the outcome turns on the legality of the length, then on how many bytes are there
(R122, R123). -/
theorem assemble_sof_len (c : Config) (b len : Byte) (body : Bytes) :
    assemble c (b :: len :: body) 0 =
      if len.toNat < 3 ∨ c.maxLen < len.toNat then .badLength len
      else if body.length < len.toNat then .incomplete
      else judgeComplete (b :: len :: body) 0 len := by
  have hread : readByte (b :: len :: body) (0 + 1) = some len := rfl
  have hcomplete : (b :: len :: body).length - 0 < 2 + len.toNat ↔ body.length < len.toNat := by
    simp only [List.length_cons]
    omega
  simp only [assemble, hread, hcomplete, Bool.not_eq_true', lenLegal_eq_false_iff]

/-- A complete frame is judged by the checksum over its bytes from LEN to the last of the payload (R124 to R126). -/
theorem judgeComplete_fields {len : Byte} {p : Bytes} (hp : p.length + 3 = len.toNat) (b d f cks : Byte)
    (behind : Bytes) :
    judgeComplete (b :: len :: d :: f :: (p ++ cks :: behind)) 0 len =
      if compute (len :: d :: f :: p) = cks then .ok ⟨d, f, p, len⟩
      else .checksumBad len cks (compute (len :: d :: f :: p)) := by
  have hdirection : readByte (b :: len :: d :: f :: (p ++ cks :: behind)) (0 + 2) = some d := rfl
  have hcode : readByte (b :: len :: d :: f :: (p ++ cks :: behind)) (0 + 3) = some f := rfl
  have hcks : readByte (b :: len :: d :: f :: (p ++ cks :: behind)) (0 + 1 + (p.length + 3)) = some cks := by
    rw [Nat.zero_add, Nat.add_comm]
    exact readByte_between (b :: len :: d :: f :: p) cks behind
  have hcovered : memRead (b :: len :: d :: f :: (p ++ cks :: behind)) (0 + 1) (p.length + 3) = len :: d :: f :: p :=
    memRead_between [b] (len :: d :: f :: p) (cks :: behind)
  have hpayload : memRead (b :: len :: d :: f :: (p ++ cks :: behind)) (0 + 4) (p.length + 3 - 3) = p :=
    memRead_between [b, len, d, f] p (cks :: behind)
  simp only [judgeComplete, ← hp, hdirection, hcode, hcks, hcovered, hpayload, validate, beq_iff_eq]

end Sys2Proof.Machine

namespace Sys2Proof

open Machine

/-- Settles O12: every read of the assembler is at an index from `s` on. -/
theorem assemblerIgnoresEarlierBytes : Obligations.AssemblerIgnoresEarlierBytes := assemble_append_right

/-- Settles O11: the bytes before the SOF are not seen, and from the SOF on each outcome is a branch of
`assemble_sof_len`, a complete frame being judged by `judgeComplete_fields`. -/
theorem assemblerOutcomes : Obligations.AssemblerOutcomes := by
  intro c before
  have fromSof (w : Bytes) : assemble c (before ++ w) before.length = assemble c w 0 :=
    assemble_append_right c before w 0
  simp only [fromSof, assemble_sof_len]
  refine ⟨assemble_sof_alone c 0x01, fun len body => ⟨fun hbad => ?badLength, fun h3 hmax hshort => ?incomplete⟩,
    fun len d f cks p behind h3 hmax hp => ?complete⟩
  case badLength =>
    rw [if_pos hbad]
  case incomplete =>
    rw [if_neg (by omega), if_pos hshort]
  case complete =>
    have hwhole : ¬ (d :: f :: (p ++ cks :: behind)).length < len.toNat := by
      simp only [List.length_cons, List.length_append]
      omega
    rw [if_neg (by omega), if_neg hwhole, judgeComplete_fields hp]

end Sys2Proof

/-! Operands and flags (R144, R145, R155): the bits of a byte, the ids of a node mask, and the two's-complement reading
of four bytes (R69). -/

namespace Sys2Proof.Machine

/-! ### The bit helpers and the tier table -/

theorem flag_eq_testBit (b : Byte) (i : Nat) : flag b i = b.toNat.testBit i := by
  have hbit : ((b >>> i) &&& 1).toNat = b.toNat >>> i % 2 := by
    rw [BitVec.toNat_and, BitVec.toNat_ushiftRight]
    exact Nat.and_one_is_mod _
  rw [Nat.testBit_eq_decide_div_mod_eq, ← Nat.shiftRight_eq_div_pow, ← hbit, flag, Bool.eq_iff_iff, beq_iff_eq,
    decide_eq_true_eq]
  exact BitVec.toNat_inj.symm

theorem field_eq_div_mod (b : Byte) (lo w : Nat) : field b lo w = b.toNat / 2 ^ lo % 2 ^ w := by
  rw [field, Nat.and_two_pow_sub_one_eq_mod, Nat.shiftRight_eq_div_pow]

theorem tierTable_eq (t : Nat) : tierTable t = if t = 0 then some 9600 else if t = 1 then some 40000 else none := by
  match t with
  | 0 => rfl
  | 1 => rfl
  | _ + 2 => rfl

/-! ### The ids of a node mask -/

theorem mem_nodesOfByte {b : Byte} {j k : Nat} :
    k ∈ nodesOfByte b j ↔ ∃ i, i < 8 ∧ b.toNat.testBit i = true ∧ k = 8 * j + i + 1 := by
  simp [nodesOfByte, flag_eq_testBit, eq_comm (a := k), and_assoc]

theorem mem_nodesFrom {m : Bytes} {j k : Nat} :
    k ∈ nodesFrom j m ↔
      ∃ a i b, i < 8 ∧ readByte m a = some b ∧ b.toNat.testBit i = true ∧ k = 8 * (j + a) + i + 1 := by
  induction m generalizing j with
  | nil => simp [nodesFrom, readByte]
  | cons b m ih =>
    rw [nodesFrom, List.mem_append, mem_nodesOfByte, ih]
    constructor
    · rintro (⟨i, hi, hbit, hk⟩ | ⟨a, i, b', hi, hread, hbit, hk⟩)
      · exact ⟨0, i, b, hi, rfl, hbit, hk⟩
      · exact ⟨a + 1, i, b', hi, hread, hbit, by omega⟩
    · rintro ⟨_ | a, i, b', hi, hread, hbit, hk⟩
      · cases hread
        exact .inl ⟨i, hi, hbit, hk⟩
      · exact .inr ⟨a, i, b', hi, hread, hbit, by omega⟩

/-- Within a byte the ids ascend with the bit (R144). -/
theorem nodesOfByte_ascending (b : Byte) (j : Nat) : (nodesOfByte b j).Pairwise (· < ·) :=
  List.Pairwise.map _ (fun _ _ h => by omega) (List.pairwise_lt_range.filter _)

/-- The ids of a byte lie before those of the bytes after it (R144). -/
theorem nodesFrom_ascending (j : Nat) (m : Bytes) : (nodesFrom j m).Pairwise (· < ·) := by
  induction m generalizing j with
  | nil => exact .nil
  | cons b m ih =>
    refine List.pairwise_append.mpr ⟨nodesOfByte_ascending b j, ih (j + 1), fun k hk k' hk' => ?_⟩
    obtain ⟨i, hi, -, rfl⟩ := mem_nodesOfByte.mp hk
    obtain ⟨a, i', -, -, -, -, rfl⟩ := mem_nodesFrom.mp hk'
    omega

theorem nodesFrom_zeros (n j : Nat) : nodesFrom j (List.replicate n 0x00) = [] := by
  induction n generalizing j with
  | zero => rfl
  | succ n ih => rw [List.replicate_succ, nodesFrom, ih]; rfl

theorem nodesFrom_ones (n j : Nat) : nodesFrom j (List.replicate n 0xFF) = List.range' (8 * j + 1) (8 * n) := by
  induction n generalizing j with
  | zero => rfl
  | succ n ih =>
    have hbyte : nodesOfByte 0xFF j = List.range' (8 * j + 1) 8 := rfl
    calc nodesFrom j (List.replicate (n + 1) 0xFF)
        = List.range' (8 * j + 1) 8 ++ List.range' (8 * j + 1 + 8) (8 * n) := by
          rw [List.replicate_succ, nodesFrom, ih, hbyte, Nat.mul_succ, Nat.add_right_comm]
      _ = List.range' (8 * j + 1) (8 * (n + 1)) := by
          rw [List.range'_append_1, Nat.mul_succ, Nat.add_comm 8]

/-- The bits a mask names (R144): bit `i` of byte `j` stands for the id `8 * j + i + 1`. -/
theorem mem_nodesOf {m : Bytes} {k : Nat} :
    k ∈ nodesOf m ↔ ∃ j i b, i < 8 ∧ readByte m j = some b ∧ b.toNat.testBit i = true ∧ k = 8 * j + i + 1 := by
  simp only [nodesOf, mem_nodesFrom, Nat.zero_add]

/-! ### The home id -/

/-- Appending a byte to a bit vector is one more base-256 digit. -/
theorem toNat_append_byte {w : Nat} (x : BitVec w) (b : Byte) : (x ++ b).toNat = x.toNat * 256 + b.toNat := by
  rw [BitVec.toNat_append, ← Nat.shiftLeft_add_eq_or_of_lt b.isLt, Nat.shiftLeft_eq]

theorem signed32_beNat (h0 h1 h2 h3 : Byte) : signed32 (beNat [h0, h1, h2, h3]) = (h0 ++ h1 ++ h2 ++ h3).toInt := by
  have hnat : beNat [h0, h1, h2, h3] = (h0 ++ h1 ++ h2 ++ h3).toNat := by
    simp only [beNat, List.foldl, toNat_append_byte, Nat.zero_mul, Nat.zero_add]
  rw [hnat, signed32, BitVec.toInt_eq_toNat_cond]
  split_ifs
  · rfl
  · omega
  · omega
  · rfl

end Sys2Proof.Machine

namespace Sys2Proof

open Machine

/-- Settles O13: membership and order by induction on the mask, the range from the bytes there are. -/
theorem nodeMaskIds : Obligations.NodeMaskIds := by
  refine ⟨fun m hm => ⟨nodesFrom_ascending 0 m, fun _ => mem_nodesOf, fun k hk => ?range⟩, nodesFrom_zeros 29 0,
    ?ones, ?oneBit, rfl⟩
  case range =>
    obtain ⟨j, i, b, hi, hread, -, rfl⟩ := mem_nodesOf.mp hk
    have hj : j < m.length := (readByte_isSome m j).mp (by rw [hread]; rfl)
    rw [hm, maskLen] at hj
    omega
  case ones =>
    rw [nodesOf, nodesFrom_ones, List.range'_eq_map_range]
    exact List.map_congr_left fun k _ => Nat.add_comm 1 k
  case oneBit =>
    rw [nodesOf, nodesFrom, nodesFrom_zeros]
    rfl

/-- Settles O14: a flag and a field are what shifting and masking leave of the byte. -/
theorem bitHelpersAndTierTable : Obligations.BitHelpersAndTierTable := by
  refine ⟨flag_eq_testBit, field_eq_div_mod, fun b lo w => ?below, rfl, rfl, rfl, rfl, rfl, fun t h0 h1 => ?noRate⟩
  case below =>
    rw [field_eq_div_mod]
    exact Nat.mod_lt _ (Nat.two_pow_pos w)
  case noRate =>
    rw [tierTable_eq, if_neg h0, if_neg h1]

end Sys2Proof

/-! The payload decoders (spec/43_payload_decoders.md): what every key-level instruction does with a frame in hand, the
`n_min` of every rule, and the message each rule makes of a payload that is long enough. -/

namespace Sys2Proof.Machine

/-! ### `n_min` (R142) -/

/-- `nMin` is the `n_min` of the rule (R142): a shorter payload is malformed, any other gives a message. -/
structure HasMinimum (rule : Bytes → PayloadResult) (nMin : Nat) : Prop where
  short : ∀ p, p.length < nMin → rule p = .malformed nMin
  long : ∀ p, nMin ≤ p.length → ∃ m, rule p = .decoded m

theorem HasMinimum.malformed_iff {rule : Bytes → PayloadResult} {nMin : Nat} (h : HasMinimum rule nMin) (p : Bytes)
    (k : Nat) : rule p = .malformed k ↔ k = nMin ∧ p.length < k := by
  rcases Nat.lt_or_ge p.length nMin with hp | hp
  · rw [h.short p hp, PayloadResult.malformed.injEq]
    exact ⟨fun hk => ⟨hk.symm, hk ▸ hp⟩, fun ⟨hk, _⟩ => hk.symm⟩
  · obtain ⟨m, hm⟩ := h.long p hp
    rw [hm]
    exact ⟨nofun, fun ⟨hk, hlt⟩ => absurd hlt (by omega)⟩

theorem HasMinimum.of_first_byte {rule : Bytes → PayloadResult} (hnil : rule [] = .malformed 1)
    (hcons : ∀ b rest, ∃ m, rule (b :: rest) = .decoded m) : HasMinimum rule 1 where
  short
    | [], _ => hnil
    | _ :: _, h => absurd h (by simp)
  long
    | b :: rest, _ => hcons b rest

theorem HasMinimum.of_first_two_bytes {rule : Bytes → PayloadResult} (hnil : rule [] = .malformed 2)
    (hone : ∀ a, rule [a] = .malformed 2) (hcons : ∀ a b rest, ∃ m, rule (a :: b :: rest) = .decoded m) :
    HasMinimum rule 2 where
  short
    | [], _ => hnil
    | [a], _ => hone a
    | _ :: _ :: _, h => absurd h (by simp)
  long
    | a :: b :: rest, _ => hcons a b rest

/-! ### Dispatch and the shared operation -/

/-- The key an instruction is encoded by selects it (R68, R141). -/
theorem decodeKey_of_encode {c : Config} {i : Instr} {d k : Byte} (hok : c.ok = true) (hlevel : i.level = .key)
    (hwf : i.wf c = true) (hencode : encode c i = [d, k]) : decodeKey c d k = i := by
  obtain ⟨d', k', hencode', hdecode⟩ := exists_key_of_key_level hok hlevel hwf
  cases hencode.symm.trans hencode'
  exact hdecode

section FrameInHand

variable {s : State} {v : Invocation} {f : DataFrame} {rule : Bytes → PayloadResult}

/-- With a frame in hand a rule that decodes gives its message (R140, R205). -/
theorem execPayload_decoded {m : DecodedMessage} (hv : s.inv = some v) (hf : v.frame = some f)
    (h : rule f.rawPayload = .decoded m) : execPayload rule s = .next (s.afterFrame v f (.msg m)) := by
  rw [execPayload_eq hv hf, h]
  rfl

/-- With a frame in hand a payload below `n_min` gives MALFORMED_PAYLOAD (R142, R244). -/
theorem execPayload_short {nMin : Nat} (hv : s.inv = some v) (hf : v.frame = some f) (hmin : HasMinimum rule nMin)
    (hshort : f.rawPayload.length < nMin) : execPayload rule s = .next (s.afterFrame v f (malformedItem f nMin)) := by
  rw [execPayload_eq hv hf, hmin.short _ hshort]
  rfl

end FrameInHand

/-! ### The rules (R150 to R162) -/

theorem versionRule_append (text : Bytes) (libType : Byte) :
    versionRule (text ++ [libType]) = .decoded (.version text libType) := by
  simp [versionRule]

theorem versionRule_hasMinimum : HasMinimum versionRule 1 where
  short p h := by rw [List.eq_nil_of_length_eq_zero (by omega : p.length = 0)]; rfl
  long p h := by
    rcases List.eq_nil_or_concat' p with rfl | ⟨text, libType, rfl⟩
    · cases h
    · exact ⟨_, versionRule_append text libType⟩

theorem memoryIdRule_hasMinimum : HasMinimum memoryIdRule 5 where
  short
    | [], _ | [_], _ | [_, _], _ | [_, _, _], _ | [_, _, _, _], _ => rfl
    | _ :: _ :: _ :: _ :: _ :: _, h => absurd h (by simp)
  long
    | _ :: _ :: _ :: _ :: _ :: _, _ => ⟨_, rfl⟩

theorem sucNodeIdRule_hasMinimum : HasMinimum sucNodeIdRule 1 :=
  .of_first_byte rfl fun _ _ => ⟨_, rfl⟩

theorem initDataRule_append {c : Config} {header mask : Bytes} (hheader : header.length = c.initHdrLen)
    (hmask : mask.length = 29) (rest : Bytes) :
    initDataRule c (header ++ mask ++ rest) = .decoded (.initData header (nodesOf mask)) := by
  have henough : ¬ (header ++ mask ++ rest).length < c.initHdrLen + maskLen := by
    simp only [List.length_append, maskLen]
    omega
  have hmaskRead : memRead (header ++ (mask ++ rest)) c.initHdrLen maskLen = mask := by
    rw [← hheader, maskLen, ← hmask]
    exact memRead_between header mask rest
  rw [initDataRule, if_neg henough, List.append_assoc, hmaskRead, List.take_left' hheader]

theorem initDataRule_hasMinimum (c : Config) : HasMinimum (initDataRule c) (c.initHdrLen + maskLen) where
  short _ h := if_pos h
  long _ h := ⟨_, if_neg (Nat.not_lt.mpr h)⟩

/-- The capability bytes are the first two, the device-class codes the last three (R154). -/
theorem nodeProtocolInfoRule_append (c : Config) (b0 b1 basic generic specific : Byte) (mid : Bytes) :
    nodeProtocolInfoRule c (b0 :: b1 :: (mid ++ [basic, generic, specific])) =
      .decoded (.nodeProtocolInfo (capabilities c b0 b1 basic generic specific)) := by
  have hlast : (b0 :: b1 :: (mid ++ [basic, generic, specific])).reverse =
      specific :: generic :: basic :: (mid.reverse ++ [b1, b0]) := by
    simp
  unfold nodeProtocolInfoRule
  rw [hlast]
  match mid with
  | [] | [_] | [_, _] | _ :: _ :: _ :: _ => rfl

/-- Five bytes or more are two, some, and three. -/
theorem exists_first_two_last_three {p : Bytes} (h : 5 ≤ p.length) :
    ∃ b0 b1 mid x y z, p = b0 :: b1 :: (mid ++ [x, y, z]) := by
  match p with
  | b0 :: b1 :: tail =>
    have hlast : (tail.drop (tail.length - 3)).length = 3 := by
      simp only [List.length_cons] at h
      rw [List.length_drop]
      omega
    obtain ⟨x, y, z, hxyz⟩ := List.length_eq_three.mp hlast
    exact ⟨b0, b1, tail.take (tail.length - 3), x, y, z, by rw [← hxyz, List.take_append_drop]⟩

theorem nodeProtocolInfoRule_hasMinimum (c : Config) : HasMinimum (nodeProtocolInfoRule c) 5 where
  short
    | [], _ | [_], _ | [_, _], _ | [_, _, _], _ | [_, _, _, _], _ => rfl
    | _ :: _ :: _ :: _ :: _ :: _, h => absurd h (by simp)
  long p h := by
    obtain ⟨b0, b1, mid, x, y, z, rfl⟩ := exists_first_two_last_three h
    exact ⟨_, nodeProtocolInfoRule_append c b0 b1 x y z mid⟩

theorem sendDataResRule_hasMinimum : HasMinimum sendDataResRule 1 :=
  .of_first_byte rfl fun _ _ => ⟨_, rfl⟩

theorem sendDataReqRule_hasMinimum : HasMinimum sendDataReqRule 2 :=
  .of_first_two_bytes rfl (fun _ => rfl) fun _ _ _ => ⟨_, rfl⟩

theorem requestNodeInfoRule_hasMinimum : HasMinimum requestNodeInfoRule 1 :=
  .of_first_byte rfl fun _ _ => ⟨_, rfl⟩

theorem applicationUpdateRule_hasMinimum : HasMinimum applicationUpdateRule 2 :=
  .of_first_two_bytes rfl (fun _ => rfl) fun _ _ _ => ⟨_, rfl⟩

theorem routingInfoRule_append {mask : Bytes} (hmask : mask.length = 29) (rest : Bytes) :
    routingInfoRule (mask ++ rest) = .decoded (.routingInfo (nodesOf mask)) := by
  have henough : ¬ (mask ++ rest).length < maskLen := by
    simp only [List.length_append, maskLen]
    omega
  have hmaskRead : memRead (mask ++ rest) 0 maskLen = mask := by
    rw [maskLen, ← hmask]
    exact memRead_between [] mask rest
  rw [routingInfoRule, if_neg henough, hmaskRead]

theorem routingInfoRule_hasMinimum : HasMinimum routingInfoRule maskLen where
  short _ h := if_pos h
  long _ h := ⟨_, if_neg (Nat.not_lt.mpr h)⟩

theorem applicationCommandRule_of_no_len {c : Config} (h : c.appcmdHasLen = false) :
    applicationCommandRule c = applicationCommandPlain := by
  funext p
  rw [applicationCommandRule, h]
  rfl

theorem applicationCommandRule_of_len {c : Config} (h : c.appcmdHasLen = true) :
    applicationCommandRule c = applicationCommandWithLen := by
  funext p
  rw [applicationCommandRule, h]
  rfl

theorem applicationCommandPlain_hasMinimum : HasMinimum applicationCommandPlain 3 where
  short
    | [], _ | [_], _ | [_, _], _ => rfl
    | _ :: _ :: _ :: _, h => absurd h (by simp)
  long
    | _ :: _ :: _ :: _, _ => ⟨_, rfl⟩

theorem applicationCommandWithLen_hasMinimum : HasMinimum applicationCommandWithLen 4 where
  short
    | [], _ | [_], _ | [_, _], _ | [_, _, _], _ => rfl
    | _ :: _ :: _ :: _ :: _, h => absurd h (by simp)
  long
    | _ :: _ :: _ :: _ :: _, _ => ⟨_, rfl⟩

theorem applicationCommandRule_hasMinimum (c : Config) :
    HasMinimum (applicationCommandRule c) (if c.appcmdHasLen then 4 else 3) := by
  cases h : c.appcmdHasLen with
  | false =>
    rw [applicationCommandRule_of_no_len h]
    exact applicationCommandPlain_hasMinimum
  | true =>
    rw [applicationCommandRule_of_len h]
    exact applicationCommandWithLen_hasMinimum

/-- OPAQUE decodes every payload (R162). -/
theorem opaqueRule_hasMinimum (d k : Byte) : HasMinimum (opaqueRule d k) 0 where
  short _ h := absurd h (Nat.not_lt_zero _)
  long _ _ := ⟨_, rfl⟩

/-- Every rule has the `n_min` the model lists for its instruction (R142, R150 to R162). -/
theorem payloadRule_hasMinimum (c : Config) (f : DataFrame) (i : Instr) :
    HasMinimum (payloadRule c f i) (payloadMinimum c i) := by
  cases i with
  | version => exact versionRule_hasMinimum
  | memoryId => exact memoryIdRule_hasMinimum
  | sucNodeId => exact sucNodeIdRule_hasMinimum
  | initData => exact initDataRule_hasMinimum c
  | nodeProtocolInfo => exact nodeProtocolInfoRule_hasMinimum c
  | sendDataRes => exact sendDataResRule_hasMinimum
  | sendDataReq => exact sendDataReqRule_hasMinimum
  | requestNodeInfo => exact requestNodeInfoRule_hasMinimum
  | applicationUpdate => exact applicationUpdateRule_hasMinimum
  | routingInfo => exact routingInfoRule_hasMinimum
  | applicationCommand => exact applicationCommandRule_hasMinimum c
  | opaqueKey | ack | nak | can | sof | noise => exact opaqueRule_hasMinimum _ _

theorem capabilities_eq (c : Config) (b0 b1 basic generic specific : Byte) :
    capabilities c b0 b1 basic generic specific =
      { cap0 := b0, cap1 := b1,
        listening := b0.toNat.testBit c.npiListeningBit,
        tier := b0.toNat / 2 ^ c.npiTierLo % 2 ^ c.npiTierW,
        baud :=
          if b0.toNat / 2 ^ c.npiTierLo % 2 ^ c.npiTierW = 0 then some 9600
          else if b0.toNat / 2 ^ c.npiTierLo % 2 ^ c.npiTierW = 1 then some 40000
          else none,
        version := b0.toNat / 2 ^ c.npiVerLo % 2 ^ c.npiVerW,
        routing := b1.toNat.testBit c.npiRoutingBit,
        beaming := b1.toNat.testBit c.npiBeamingBit,
        security := b1.toNat.testBit c.npiSecurityBit,
        basic := basic, generic := generic, specific := specific } := by
  simp only [capabilities, flag_eq_testBit, field_eq_div_mod, tierTable_eq]

end Sys2Proof.Machine

namespace Sys2Proof

open Machine

/-- Settles O33: every key-level instruction is the shared operation, which writes the invocation's output, cursor and
frame alone. -/
theorem payloadDecoderFrame : Obligations.PayloadDecoderFrame := by
  intro i s t hlevel h
  obtain ⟨rule, hexec⟩ := exec_key hlevel s
  obtain ⟨v, f, hv, hf, rfl⟩ := execPayload_next (hexec.symm.trans h)
  exact ⟨rfl, rfl, rfl, rfl, v, _, f, _, hv, rfl, hf, rfl, rfl, rfl, rfl, fun _ => rfl⟩

/-- Settles O20: the four bytes are read as one 32-bit vector (`signed32_beNat`). -/
theorem memoryIdDecodes : Obligations.MemoryIdDecodes :=
  ⟨fun _ hok => decodeKey_of_encode hok rfl rfl rfl, fun _ _ _ hv hf =>
    ⟨execPayload_short hv hf memoryIdRule_hasMinimum, fun h0 h1 h2 h3 _ _ h => by
      rw [← signed32_beNat]
      exact execPayload_decoded hv hf (congrArg memoryIdRule h)⟩⟩

/-- Settles O23: the capability fields by `capabilities_eq`, the device-class codes by `nodeProtocolInfoRule_append`. -/
theorem nodeProtocolInfoDecodes : Obligations.NodeProtocolInfoDecodes :=
  ⟨fun _ hok => decodeKey_of_encode hok rfl rfl rfl, fun s _ _ hv hf =>
    ⟨execPayload_short hv hf (nodeProtocolInfoRule_hasMinimum s.cfg), fun _ _ _ _ _ _ h => by
      rw [← capabilities_eq]
      exact execPayload_decoded hv hf ((congrArg _ h).trans (nodeProtocolInfoRule_append ..))⟩⟩

/-- Settles O19: the rule on a payload split at its last byte. -/
theorem versionDecodes : Obligations.VersionDecodes :=
  ⟨fun _ hok => decodeKey_of_encode hok rfl rfl rfl, fun _ _ _ hv hf =>
    ⟨execPayload_short hv hf versionRule_hasMinimum, fun text libType h =>
      execPayload_decoded hv hf ((congrArg _ h).trans (versionRule_append text libType))⟩⟩

/-- Settles O21: the rule on a payload that has a first byte. -/
theorem sucNodeIdDecodes : Obligations.SucNodeIdDecodes :=
  ⟨fun _ hok => decodeKey_of_encode hok rfl rfl rfl, fun _ _ _ hv hf =>
    ⟨execPayload_short hv hf sucNodeIdRule_hasMinimum, fun nodeId rest h => by
      have hassigned : decide (nodeId ≠ 0x00) = (nodeId != 0x00) := by rw [bne, beq_eq_decide, decide_not]
      rw [hassigned]
      exact execPayload_decoded hv hf (congrArg sucNodeIdRule h)⟩⟩

/-- Settles O22: the rule on a payload split behind its header and behind its mask. -/
theorem initDataDecodes : Obligations.InitDataDecodes :=
  ⟨fun _ hok => decodeKey_of_encode hok rfl rfl rfl, fun s _ _ hv hf =>
    ⟨execPayload_short hv hf (initDataRule_hasMinimum s.cfg), fun _ _ rest h hheader hmask =>
      execPayload_decoded hv hf ((congrArg _ h).trans (initDataRule_append hheader hmask rest))⟩⟩

/-- Settles O24: the rule on a payload that has a first byte; a read of a field is a read of what it holds (U7). -/
theorem sendDataResponseDecodes : Obligations.SendDataResponseDecodes :=
  ⟨fun _ hok => decodeKey_of_encode hok rfl rfl rfl,
    fun _ _ _ hv hf => ⟨execPayload_short hv hf sendDataResRule_hasMinimum, fun _ _ h =>
      execPayload_decoded hv hf (congrArg sendDataResRule h)⟩,
    fun _ => ⟨congrArg readField, congrArg readField, congrArg readField,
      fun _ => congrArg readField, fun _ => congrArg readField, fun _ => congrArg readField⟩⟩

/-- Settles O25: the rule on a payload that has two bytes. -/
theorem sendDataCallbackDecodes : Obligations.SendDataCallbackDecodes :=
  ⟨fun _ hok => decodeKey_of_encode hok rfl rfl rfl, fun _ _ _ hv hf =>
    ⟨execPayload_short hv hf sendDataReqRule_hasMinimum, fun _ _ _ h =>
      execPayload_decoded hv hf (congrArg sendDataReqRule h)⟩⟩

/-- Settles O26: the rule on a payload that has a first byte. -/
theorem requestNodeInfoDecodes : Obligations.RequestNodeInfoDecodes :=
  ⟨fun _ hok => decodeKey_of_encode hok rfl rfl rfl, fun _ _ _ hv hf =>
    ⟨execPayload_short hv hf requestNodeInfoRule_hasMinimum, fun raw rest h => by
      rw [← beq_eq_decide]
      exact execPayload_decoded hv hf (congrArg requestNodeInfoRule h)⟩⟩

/-- Settles O27: the rule on a payload that has two bytes. -/
theorem applicationUpdateDecodes : Obligations.ApplicationUpdateDecodes :=
  ⟨fun _ hok => decodeKey_of_encode hok rfl rfl rfl, fun _ _ _ hv hf =>
    ⟨execPayload_short hv hf applicationUpdateRule_hasMinimum, fun _ _ _ h =>
      execPayload_decoded hv hf (congrArg applicationUpdateRule h)⟩⟩

/-- Settles O28: the rule on a payload split behind its mask. -/
theorem routingInfoDecodes : Obligations.RoutingInfoDecodes :=
  ⟨fun _ hok => decodeKey_of_encode hok rfl rfl rfl, fun _ _ _ hv hf =>
    ⟨execPayload_short hv hf routingInfoRule_hasMinimum, fun _ rest h hmask =>
      execPayload_decoded hv hf ((congrArg _ h).trans (routingInfoRule_append hmask rest))⟩⟩

/-- Settles O29: by whether the configuration has the length byte. -/
theorem applicationCommandDecodes : Obligations.ApplicationCommandDecodes := by
  refine ⟨fun _ hok => decodeKey_of_encode hok rfl rfl rfl, fun s v f hv hf =>
    ⟨fun hlen => ?plain, fun hlen => ?withLen⟩⟩
  case plain =>
    have hexec : exec .applicationCommand s = execPayload applicationCommandPlain s :=
      congrArg (execPayload · s) (applicationCommandRule_of_no_len hlen)
    rw [hexec]
    exact ⟨execPayload_short hv hf applicationCommandPlain_hasMinimum,
      fun _ _ _ _ h => execPayload_decoded hv hf (congrArg applicationCommandPlain h)⟩
  case withLen =>
    have hexec : exec .applicationCommand s = execPayload applicationCommandWithLen s :=
      congrArg (execPayload · s) (applicationCommandRule_of_len hlen)
    rw [hexec]
    exact ⟨execPayload_short hv hf applicationCommandWithLen_hasMinimum,
      fun _ _ _ _ _ h => execPayload_decoded hv hf (congrArg applicationCommandWithLen h)⟩

/-- Settles O30: a key without a row is OPAQUE, and its rule reads nothing. -/
theorem opaqueDecodes : Obligations.OpaqueDecodes :=
  ⟨fun _ _ _ h => decodeKey_of_unknown h, fun _ _ _ hv hf => execPayload_decoded hv hf rfl⟩

end Sys2Proof

/-! Bytes that leave nothing pending (R205, R206): they give their items, and the bytes behind them are decoded as if
they were the whole chunk. -/

namespace Sys2Proof.Machine

/-! ### The assembler does not see what stands behind a frame it has judged -/

theorem judgeComplete_append_left {w : Bytes} {s : Nat} {len : Byte} (h3 : 3 ≤ len.toNat)
    (hw : s + 2 + len.toNat ≤ w.length) (more : Bytes) : judgeComplete (w ++ more) s len = judgeComplete w s len := by
  simp only [judgeComplete, readByte_append_left w more (s + 2) (by omega),
    readByte_append_left w more (s + 3) (by omega), readByte_append_left w more (s + 1 + len.toNat) (by omega),
    memRead_append_left w more (s + 1) len.toNat (by omega),
    memRead_append_left w more (s + 4) (len.toNat - 3) (by omega)]

theorem assemble_append_left {c : Config} {b : Byte} {w : Bytes} (h : assemble c (b :: w) 0 ≠ .incomplete)
    (more : Bytes) : assemble c (b :: w ++ more) 0 = assemble c (b :: w) 0 := by
  match w with
  | [] => exact absurd (assemble_sof_alone c b) h
  | len :: body =>
    simp only [List.cons_append, assemble_sof_len] at h ⊢
    by_cases hbad : len.toNat < 3 ∨ c.maxLen < len.toNat
    · rw [if_pos hbad, if_pos hbad]
    · have hwhole : ¬ body.length < len.toNat := by
        intro hshort
        rw [if_neg hbad, if_pos hshort] at h
        exact h rfl
      have hwhole' : ¬ (body ++ more).length < len.toNat := by
        rw [List.length_append]
        omega
      rw [if_neg hbad, if_neg hbad, if_neg hwhole, if_neg hwhole']
      exact judgeComplete_append_left (w := b :: len :: body) (by omega) (by simp only [List.length_cons]; omega) more

/-! ### What a SOF consumes -/

/-- The orchestrator's action on an outcome of the assembler (R205): the item it emits and the bytes it consumes; an
incomplete frame is kept. -/
def Assembly.consumed (c : Config) : Assembly → Option (Item × Nat)
  | .incomplete => none
  | .badLength len => some (diagItem (.badLength len), 1)
  | .checksumBad len declared computed => some (diagItem (.checksumMismatch len declared computed), 2 + len.toNat)
  | .ok f => some (payloadItem f (decodePayload c f), 2 + f.declaredLength.toNat)

/-- A pass that finds a SOF emits the item of its outcome and resumes behind the bytes it consumes. -/
theorem decodeLoop_sof {c : Config} {w : Bytes} {cur i k : Nat} {x : Item} (h : scan w cur = some (i, .sof))
    (hx : (assemble c w i).consumed c = some (x, k)) (n : Nat) (out : List Item) :
    decodeLoop c w (n + 1) cur out = decodeLoop c w n (i + k) (out ++ [x]) := by
  cases ha : assemble c w i <;> rw [ha] at hx <;> cases hx
  case badLength len => exact decodeLoop_badLength h ha n out
  case checksumBad len declared computed => rw [← Nat.add_assoc]; exact decodeLoop_checksumBad h ha n out
  case ok f => rw [← Nat.add_assoc]; exact decodeLoop_ok h ha n out

/-- What a SOF consumes stands in the buffer, the SOF with it. -/
theorem consumed_bounds {c : Config} {w : Bytes} {i k : Nat} {x : Item} (hi : i < w.length)
    (hx : (assemble c w i).consumed c = some (x, k)) : 0 < k ∧ i + k ≤ w.length := by
  cases ha : assemble c w i <;> rw [ha] at hx <;> cases hx
  case badLength len => omega
  case checksumBad len declared computed =>
    obtain ⟨-, -, hw, -⟩ := assemble_checksumBad ha
    omega
  case ok f =>
    obtain ⟨-, -, hw, -⟩ := assemble_ok ha
    omega

/-- The loop at a cursor inside the buffer decodes the bytes from there on as a chunk of their own. -/
theorem decodeLoop_eq_decodeChunk_drop (c : Config) {w : Bytes} {cur passes : Nat} (hcur : cur ≤ w.length)
    (hpasses : w.length < cur + passes) (out : List Item) :
    decodeLoop c w passes cur out =
      (out ++ (decodeChunk c [] (w.drop cur)).1, (decodeChunk c [] (w.drop cur)).2) := by
  have hlength : (w.take cur).length = cur := List.length_take_of_le hcur
  have hrest : (w.drop cur).length = w.length - cur := List.length_drop
  calc decodeLoop c w passes cur out
      = decodeLoop c (w.take cur ++ w.drop cur) passes ((w.take cur).length + 0) out := by
        rw [List.take_append_drop, hlength, Nat.add_zero]
    _ = decodeLoop c (w.drop cur) passes 0 out := decodeLoop_append_right ..
    _ = decodeLoop c (w.drop cur) ((w.drop cur).length + 1) 0 out :=
        decodeLoop_passes_irrelevant (by omega) (by omega) out
    _ = _ := decodeLoop_out ..

/-- A SOF that is not kept gives its item, and the bytes behind those it consumes are decoded as a chunk of their own. -/
theorem decodeChunk_cons_sof {c : Config} {w : Bytes} {k : Nat} {x : Item}
    (hx : (assemble c (0x01 :: w) 0).consumed c = some (x, k)) :
    decodeChunk c [] (0x01 :: w) =
      (x :: (decodeChunk c [] ((0x01 :: w).drop k)).1, (decodeChunk c [] ((0x01 :: w).drop k)).2) := by
  obtain ⟨hpos, hk⟩ := consumed_bounds (Nat.succ_pos _) hx
  rw [Nat.zero_add] at hk
  calc decodeChunk c [] (0x01 :: w)
      = decodeLoop c (0x01 :: w) (0x01 :: w).length (0 + k) [x] := decodeLoop_sof (scan_of_marker rfl rfl) hx _ _
    _ = _ := by
        rw [Nat.zero_add]
        exact decodeLoop_eq_decodeChunk_drop c hk (by omega) _

/-- A kept SOF leaves itself and all behind it pending (R205). -/
theorem decodeChunk_cons_sof_incomplete {c : Config} {w : Bytes} (h : assemble c (0x01 :: w) 0 = .incomplete) :
    decodeChunk c [] (0x01 :: w) = ([], 0x01 :: w) :=
  decodeLoop_incomplete (scan_of_marker rfl rfl) h _ _

/-! ### Bytes that leave nothing pending -/

/-- The first `k` bytes of `w`, at least one, give `items` and leave nothing pending, whatever stands behind `w`. -/
def ConsumesHead (c : Config) (w : Bytes) (items : List Item) (k : Nat) : Prop :=
  0 < k ∧ k ≤ w.length ∧ ∀ more, decodeChunk c [] (w ++ more) =
    (items ++ (decodeChunk c [] (w.drop k ++ more)).1, (decodeChunk c [] (w.drop k ++ more)).2)

theorem consumesHead_noise (c : Config) {b : Byte} (hb : markerOf b = none) (w : Bytes) :
    ConsumesHead c (b :: w) [] 1 :=
  ⟨Nat.one_pos, Nat.succ_pos _, fun more => decodeChunk_cons_noise c (markerOf_eq_none.mp hb) (w ++ more)⟩

theorem consumesHead_control (c : Config) {b : Byte} {k : CtlKind} (hb : markerOf b = some k.marker) (w : Bytes) :
    ConsumesHead c (b :: w) [.ctl k] 1 :=
  ⟨Nat.one_pos, Nat.succ_pos _, fun more => decodeChunk_cons_control c hb (w ++ more)⟩

theorem consumesHead_sof {c : Config} {w : Bytes} {k : Nat} {x : Item}
    (hx : (assemble c (0x01 :: w) 0).consumed c = some (x, k)) : ConsumesHead c (0x01 :: w) [x] k := by
  obtain ⟨hpos, hk⟩ := consumed_bounds (Nat.succ_pos _) hx
  rw [Nat.zero_add] at hk
  have hjudged : assemble c (0x01 :: w) 0 ≠ .incomplete := fun ha => by rw [ha] at hx; cases hx
  refine ⟨hpos, hk, fun more => ?_⟩
  rw [← List.drop_append_of_le_length hk]
  exact decodeChunk_cons_sof ((congrArg _ (assemble_append_left hjudged more)).trans hx)

/-- The first byte of a chunk either leaves bytes pending, or it is consumed with its item. -/
theorem pending_or_consumesHead (c : Config) (b : Byte) (w : Bytes) :
    (decodeChunk c [] (b :: w)).2 ≠ [] ∨ ∃ items k, ConsumesHead c (b :: w) items k := by
  cases hm : markerOf b with
  | none => exact .inr ⟨_, _, consumesHead_noise c hm w⟩
  | some k =>
    cases k with
    | ack => exact .inr ⟨_, _, consumesHead_control c (k := .ack) hm w⟩
    | nak => exact .inr ⟨_, _, consumesHead_control c (k := .nak) hm w⟩
    | can => exact .inr ⟨_, _, consumesHead_control c (k := .can) hm w⟩
    | sof =>
      obtain rfl := markerOf_eq_sof.mp hm
      cases ha : assemble c (0x01 :: w) 0 with
      | incomplete =>
        rw [decodeChunk_cons_sof_incomplete ha]
        exact .inl (List.cons_ne_nil _ _)
      | badLength | checksumBad | ok => exact .inr ⟨_, _, consumesHead_sof (congrArg _ ha)⟩

/-- Behind bytes that leave nothing pending the rest is decoded as a chunk of its own. -/
theorem decodeChunk_append {c : Config} {before : Bytes} (h : (decodeChunk c [] before).2 = []) (rest : Bytes) :
    decodeChunk c [] (before ++ rest) =
      ((decodeChunk c [] before).1 ++ (decodeChunk c [] rest).1, (decodeChunk c [] rest).2) := by
  match before with
  | [] => rfl
  | b :: w =>
    rcases pending_or_consumesHead c b w with hkept | ⟨items, k, hpos, hk, hhead⟩
    · exact absurd h hkept
    · have hwhole := hhead []
      rw [List.append_nil, List.append_nil] at hwhole
      rw [hwhole] at h ⊢
      rw [hhead, decodeChunk_append h, List.append_assoc]
termination_by before.length
decreasing_by simp only [List.length_drop]; omega

/-- A valid frame at the head of a chunk gives its payload's item and is consumed whole (R126, R205). -/
theorem decodeChunk_valid_frame {c : Config} {len d f : Byte} {p : Bytes} (h3 : 3 ≤ len.toNat)
    (hmax : len.toNat ≤ c.maxLen) (hp : p.length + 3 = len.toNat) (rest : Bytes) :
    decodeChunk c [] (0x01 :: len :: d :: f :: (p ++ compute (len :: d :: f :: p) :: rest)) =
      (payloadItem ⟨d, f, p, len⟩ (decodePayload c ⟨d, f, p, len⟩) :: (decodeChunk c [] rest).1,
        (decodeChunk c [] rest).2) := by
  have hok : assemble c (0x01 :: len :: d :: f :: (p ++ compute (len :: d :: f :: p) :: rest)) 0 =
      .ok ⟨d, f, p, len⟩ := by
    obtain ⟨-, -, hcomplete⟩ := assemblerOutcomes c []
    exact (hcomplete len d f _ p rest h3 hmax hp).trans (if_pos rfl)
  have hbehind :
      (0x01 :: len :: d :: f :: (p ++ compute (len :: d :: f :: p) :: rest)).drop (2 + len.toNat) = rest := by
    rw [← hp, Nat.add_comm]
    simp
  rw [decodeChunk_cons_sof (congrArg _ hok), hbehind]

end Sys2Proof.Machine

namespace Sys2Proof

open Machine

/-- Settles O60: the bytes before the frame are decoded alone, the frame gives its payload's item, and every rule has
the `n_min` of its instruction. -/
theorem validFrameGivesOneItem : Obligations.ValidFrameGivesOneItem := by
  refine ⟨fun c len d f cks p before rest hbefore h3 hmax hp hcks => ?oneItem,
    fun c fr k => (payloadRule_hasMinimum c fr _).malformed_iff fr.rawPayload k,
    fun c => ⟨rfl, rfl, rfl, rfl, rfl, rfl, rfl, rfl, rfl, rfl, rfl, fun _ _ => rfl⟩⟩
  case oneItem =>
    subst hcks
    rw [decodeChunk_append hbefore, decodeChunk_valid_frame h3 hmax hp]
    cases decodePayload c ⟨d, f, p, len⟩ <;> rfl

end Sys2Proof

/-! The orchestrator (spec/44_orchestrator.md): what a step runs (R201 to R203), that a chunk is decoded from any PB as
R211 allows it byte after byte (R212 to R215), and the invariant every step keeps (R211, R217). -/

namespace Sys2Proof.Machine

/-! ### What a step runs -/

/-- The step of an invocation runs its next instruction (R202). -/
theorem step_of_nextInstr {s : State} {v : Invocation} {i : Instr} (hok : s.cfg.ok = true) (hv : s.inv = some v)
    (hi : v.nextInstr s.cfg = some i) : step s = exec i s := by
  simp [step, hok, hv, hi]

/-- With no next instruction the step ends the invocation (R203). -/
theorem step_of_no_nextInstr {s : State} {v : Invocation} (hok : s.cfg.ok = true) (hv : s.inv = some v)
    (hi : v.nextInstr s.cfg = none) : step s = .next (s.finish v []) := by
  simp [step, hok, hv, hi]

/-- The step between invocations is that of the caller's next call (R201, R252). -/
theorem step_of_no_invocation {s : State} (hok : s.cfg.ok = true) (hv : s.inv = none) : step s = stepIdle s := by
  simp [step, hok, hv]

theorem nextInstr_of_decode {c : Config} {v : Invocation} {i : Instr} {rest : Bytes}
    (h : decode c v.level v.fetchBytes = .ok (i, rest)) : v.nextInstr c = some i := by
  simp [Invocation.nextInstr, h]

/-! ### The PendingBuffer of R211 -/

/-- A byte is noise, a SOF, or the marker of a control frame (R110). -/
theorem markerOf_cases (b : Byte) :
    markerOf b = none ∨ b = 0x01 ∨ ∃ k : CtlKind, markerOf b = some k.marker := by
  cases hm : markerOf b with
  | none => exact .inl rfl
  | some k =>
    cases k with
    | sof => exact .inr (.inl (markerOf_eq_sof.mp hm))
    | ack => exact .inr (.inr ⟨.ack, rfl⟩)
    | nak => exact .inr (.inr ⟨.nak, rfl⟩)
    | can => exact .inr (.inr ⟨.can, rfl⟩)

theorem pendingOk_sof_len {c : Config} {len : Byte} {q : Bytes} :
    pendingOk c (0x01 :: len :: q) = true ↔ lenLegal c len = true ∧ q.length < len.toNat := by
  simp [pendingOk]

/-- The three shapes of PB (R211). -/
theorem pendingOk_cases {c : Config} {pb : Bytes} (h : pendingOk c pb = true) :
    pb = [] ∨ pb = [0x01] ∨
      ∃ len q, pb = 0x01 :: len :: q ∧ lenLegal c len = true ∧ q.length < len.toNat := by
  match pb with
  | [] => exact .inl rfl
  | [b] => exact .inr (.inl (by simpa [pendingOk] using h))
  | b :: len :: q =>
    obtain ⟨⟨rfl, hlegal⟩, hshort⟩ : (b = 0x01 ∧ lenLegal c len = true) ∧ q.length < len.toNat := by
      simpa [pendingOk] using h
    exact .inr (.inr ⟨len, q, rfl, hlegal, hshort⟩)

/-- The bytes from a SOF on are a legal PB exactly when the assembler finds them incomplete (R123, R211). -/
theorem pendingOk_cons_sof_iff {c : Config} {w : Bytes} :
    pendingOk c (0x01 :: w) = true ↔ assemble c (0x01 :: w) 0 = .incomplete := by
  match w with
  | [] => exact ⟨fun _ => assemble_sof_alone c 0x01, fun _ => rfl⟩
  | len :: q =>
    rw [pendingOk_sof_len]
    constructor
    · rintro ⟨hlegal, hshort⟩
      obtain ⟨h3, hmax⟩ := lenLegal_iff.mp hlegal
      rw [assemble_sof_len, if_neg (by omega), if_pos hshort]
    · intro h
      rcases assemble_incomplete h with hnone | ⟨l, hl, hlegal, hshort⟩
      · simp only [List.length_cons] at hnone
        omega
      · obtain rfl : len = l := Option.some.inj hl
        simp only [List.length_cons] at hshort
        exact ⟨hlegal, by omega⟩

/-- A legal PB that is not empty begins with a SOF whose frame is incomplete. -/
theorem pendingOk_eq_nil_or_incomplete {c : Config} {pb : Bytes} (h : pendingOk c pb = true) :
    pb = [] ∨ ∃ w, pb = 0x01 :: w ∧ assemble c (0x01 :: w) 0 = .incomplete := by
  rcases pendingOk_cases h with rfl | rfl | ⟨len, q, rfl, -⟩
  · exact .inl rfl
  · exact .inr ⟨_, rfl, pendingOk_cons_sof_iff.mp h⟩
  · exact .inr ⟨_, rfl, pendingOk_cons_sof_iff.mp h⟩

/-- RETAIN_MAX (R7) bounds a legal PB. -/
theorem length_le_retainMax {c : Config} {pb : Bytes} (h : pendingOk c pb = true) : pb.length ≤ 1 + c.maxLen := by
  rcases pendingOk_cases h with rfl | rfl | ⟨len, q, rfl, hlegal, hshort⟩
  · exact Nat.zero_le _
  · exact Nat.le_add_right _ _
  · obtain ⟨-, hmax⟩ := lenLegal_iff.mp hlegal
    simp only [List.length_cons]
    omega

/-! ### A chunk, from its head on -/

/-- PB and chunk are decoded as the one buffer they make (R201). -/
theorem decodeChunk_eq_append (c : Config) (pb chunk : Bytes) :
    decodeChunk c pb chunk = decodeChunk c [] (pb ++ chunk) := rfl

/-- A legal PB waits for more (R215). -/
theorem decodeChunk_of_pendingOk {c : Config} {pb : Bytes} (h : pendingOk c pb = true) :
    decodeChunk c [] pb = ([], pb) := by
  rcases pendingOk_eq_nil_or_incomplete h with rfl | ⟨w, rfl, hincomplete⟩
  · exact decodeChunk_nil c
  · exact decodeChunk_cons_sof_incomplete hincomplete

theorem Assembly.consumed_eq_none_iff {c : Config} {a : Assembly} : a.consumed c = none ↔ a = .incomplete := by
  cases a <;> simp [Assembly.consumed]

theorem ConsumesHead.decodeChunk_eq {c : Config} {w : Bytes} {items : List Item} {k : Nat}
    (h : ConsumesHead c w items k) :
    decodeChunk c [] w = (items ++ (decodeChunk c [] (w.drop k)).1, (decodeChunk c [] (w.drop k)).2) := by
  obtain ⟨-, -, hmore⟩ := h
  simpa using hmore []

/-- A buffer is a legal PB, or its head is consumed whatever stands behind it. -/
theorem pendingOk_or_consumesHead (c : Config) (w : Bytes) :
    pendingOk c w = true ∨ ∃ items k, ConsumesHead c w items k := by
  match w with
  | [] => exact .inl rfl
  | b :: w =>
    rcases markerOf_cases b with hnoise | rfl | ⟨k, hk⟩
    · exact .inr ⟨_, _, consumesHead_noise c hnoise w⟩
    · cases hx : (assemble c (0x01 :: w) 0).consumed c with
      | none => exact .inl (pendingOk_cons_sof_iff.mpr (Assembly.consumed_eq_none_iff.mp hx))
      | some r => exact .inr ⟨_, _, consumesHead_sof hx⟩
    · exact .inr ⟨_, _, consumesHead_control c hk w⟩

/-- The induction of the loop of R208: a fact about buffers holds if it holds of every legal PB, and of a buffer
whenever it holds of what is left once the head is consumed. -/
theorem buffer_induction (c : Config) {P : Bytes → Prop} (pending : ∀ w, pendingOk c w = true → P w)
    (consumed : ∀ w items k, ConsumesHead c w items k → P (w.drop k) → P w) (w : Bytes) : P w := by
  rcases pendingOk_or_consumesHead c w with hpending | ⟨items, k, hhead⟩
  · exact pending w hpending
  · have ⟨hpos, hk, _⟩ := hhead
    exact consumed w items k hhead (buffer_induction c pending consumed (w.drop k))
termination_by w.length
decreasing_by simp only [List.length_drop]; omega

/-- The PB an invocation leaves is legal (R211). -/
theorem pendingOk_decodeChunk (c : Config) (w : Bytes) : pendingOk c (decodeChunk c [] w).2 = true := by
  induction w using buffer_induction c with
  | pending w h => rwa [decodeChunk_of_pendingOk h]
  | consumed w items k h ih => rwa [h.decodeChunk_eq]

/-- The PB an invocation leaves is the end of its working buffer (R207). -/
theorem decodeChunk_pb_suffix (c : Config) (w : Bytes) : (decodeChunk c [] w).2 <:+ w := by
  induction w using buffer_induction c with
  | pending w h => rw [decodeChunk_of_pendingOk h]
  | consumed w items k h ih => rw [h.decodeChunk_eq]; exact ih.trans (List.drop_suffix k w)

/-- Cutting the bytes in two changes nothing: the second part is decoded from the PB the first one leaves (R212). -/
theorem decodeChunk_cut (c : Config) (first second : Bytes) :
    decodeChunk c [] (first ++ second) =
      ((decodeChunk c [] first).1 ++ (decodeChunk c (decodeChunk c [] first).2 second).1,
        (decodeChunk c (decodeChunk c [] first).2 second).2) := by
  induction first using buffer_induction c with
  | pending w h => rw [decodeChunk_of_pendingOk h]; rfl
  | consumed w items k h ih =>
    have ⟨_, _, hmore⟩ := h
    rw [hmore, ih, h.decodeChunk_eq, List.append_assoc]

/-- The invocations of a session, from a legal PB, are one invocation on the joined chunks (R212). -/
theorem decodeChunks_eq_decodeChunk_flatten {c : Config} {pb : Bytes} (h : pendingOk c pb = true)
    (chunks : List Bytes) : decodeChunks c pb chunks = decodeChunk c pb chunks.flatten := by
  induction chunks generalizing pb with
  | nil => rw [decodeChunk_eq_append, List.flatten_nil, List.append_nil, decodeChunk_of_pendingOk h]; rfl
  | cons chunk rest ih =>
    have hnext : pendingOk c (decodeChunk c pb chunk).2 = true := pendingOk_decodeChunk c (pb ++ chunk)
    calc decodeChunks c pb (chunk :: rest)
        = ((decodeChunk c pb chunk).1 ++ (decodeChunks c (decodeChunk c pb chunk).2 rest).1,
            (decodeChunks c (decodeChunk c pb chunk).2 rest).2) := rfl
      _ = decodeChunk c [] (pb ++ chunk ++ rest.flatten) := by rw [ih hnext, decodeChunk_cut]; rfl
      _ = decodeChunk c pb (chunk :: rest).flatten := by
          rw [List.append_assoc, List.flatten_cons]; rfl

/-! ### Whole frames -/

/-- A complete frame of legal length is judged with one item, and the SOF consumes all of it (R124 to R126, R205). -/
theorem exists_item_of_complete_frame {c : Config} {len : Byte} {body : Bytes} (hlegal : lenLegal c len = true)
    (hbody : body.length = len.toNat) :
    ∃ x, judgeFrame c (0x01 :: len :: body) = [x] ∧
      (assemble c (0x01 :: len :: body) 0).consumed c = some (x, 2 + len.toNat) := by
  obtain ⟨h3, hmax⟩ := lenLegal_iff.mp hlegal
  have hjudged : assemble c (0x01 :: len :: body) 0 = judgeComplete (0x01 :: len :: body) 0 len := by
    rw [assemble_sof_len, if_neg (by omega), if_neg (by omega)]
  have hwhole : 0 + 2 + len.toNat ≤ (0x01 :: len :: body : Bytes).length := by
    simp only [List.length_cons]
    omega
  obtain ⟨d, f, cks, -, -, -, ⟨-, h⟩ | ⟨-, h⟩⟩ := judgeComplete_cases h3 hwhole
  · exact ⟨_, by rw [judgeFrame, hjudged, h], by rw [hjudged, h]; rfl⟩
  · exact ⟨_, by rw [judgeFrame, hjudged, h], by rw [hjudged, h]; rfl⟩

/-- A complete frame of legal length gives the items it is judged with and leaves nothing pending. -/
theorem decodeChunk_complete_frame {c : Config} {len : Byte} {body : Bytes} (hlegal : lenLegal c len = true)
    (hbody : body.length = len.toNat) :
    decodeChunk c [] (0x01 :: len :: body) = (judgeFrame c (0x01 :: len :: body), []) := by
  obtain ⟨x, hjudge, hx⟩ := exists_item_of_complete_frame hlegal hbody
  have hbehind : (0x01 :: len :: body).drop (2 + len.toNat) = [] :=
    List.drop_eq_nil_of_le (by simp only [List.length_cons]; omega)
  rw [decodeChunk_cons_sof hx, hbehind, hjudge, decodeChunk_nil]

/-- A whole frame, a control byte or a data frame, leaves nothing pending (R60). -/
theorem decodeChunk_wholeFrame {c : Config} {frame : Bytes} (h : wholeFrame c frame = true) :
    (decodeChunk c [] frame).2 = [] := by
  match frame with
  | [b] =>
    have hb : b = 0x06 ∨ b = 0x15 ∨ b = 0x18 := by simpa [wholeFrame, or_assoc] using h
    rcases hb with rfl | rfl | rfl
    · rw [decodeChunk_cons_control c (k := .ack) rfl, decodeChunk_nil]
    · rw [decodeChunk_cons_control c (k := .nak) rfl, decodeChunk_nil]
    · rw [decodeChunk_cons_control c (k := .can) rfl, decodeChunk_nil]
  | b :: len :: body =>
    obtain ⟨⟨rfl, hlegal⟩, hbody⟩ : (b = 0x01 ∧ lenLegal c len = true) ∧ body.length = len.toNat := by
      simpa [wholeFrame] using h
    rw [decodeChunk_complete_frame hlegal hbody]

/-! ### The byte-serial form (R214) -/

theorem toPending_serialOf {c : Config} {pb : Bytes} (h : pendingOk c pb = true) : (serialOf pb).toPending = pb := by
  rcases pendingOk_cases h with rfl | rfl | ⟨len, q, rfl, -⟩ <;> rfl

theorem feedHunt_control {b : Byte} {k : CtlKind} (h : markerOf b = some k.marker) :
    feedHunt b = ([.ctl k], .hunt) := by
  cases k <;> rw [feedHunt, h] <;> rfl

theorem feedHunt_noise {b : Byte} (h : markerOf b = none) : feedHunt b = ([], .hunt) := by
  rw [feedHunt, h]

theorem feed_gotSof_illegal {c : Config} {b : Byte} (h : lenLegal c b = false) :
    feed c .gotSof b = (diagItem (.badLength b) :: (feedHunt b).1, (feedHunt b).2) := by
  simp [feed, h]

theorem feed_gotSof_legal {c : Config} {b : Byte} (h : lenLegal c b = true) :
    feed c .gotSof b = ([], .body b []) := by
  simp [feed, h]

theorem feed_body_short {len : Byte} {q : Bytes} (c : Config) (b : Byte) (h : q.length + 1 < len.toNat) :
    feed c (.body len q) b = ([], .body len (q ++ [b])) := by
  simp [feed, h]

theorem feed_body_complete {c : Config} {len : Byte} {q : Bytes} (b : Byte) (hlegal : lenLegal c len = true)
    (h : q.length + 1 = len.toNat) :
    feed c (.body len q) b = ((decodeChunk c [] (0x01 :: len :: (q ++ [b]))).1, .hunt) := by
  have hbody : (q ++ [b]).length = len.toNat := by simpa using h
  rw [decodeChunk_complete_frame hlegal hbody, feed, if_neg (by omega)]

/-- What `feed` does to the serial state of PB and a byte `decode` does to PB and the chunk of that byte alone. -/
def FeedAgrees (c : Config) (pb : Bytes) (b : Byte) : Prop :=
  feed c (serialOf pb) b = ((decodeChunk c pb [b]).1, serialOf (decodeChunk c pb [b]).2)

theorem feedAgrees_hunt (c : Config) (b : Byte) : FeedAgrees c [] b := by
  change feedHunt b = _
  rcases markerOf_cases b with hnoise | rfl | ⟨k, hk⟩
  · rw [feedHunt_noise hnoise, decodeChunk_cons_noise c (markerOf_eq_none.mp hnoise)]
    rfl
  · rw [decodeChunk_cons_sof_incomplete (assemble_sof_alone c 0x01)]
    rfl
  · rw [feedHunt_control hk, decodeChunk_cons_control c hk]
    rfl

/-- A legal length byte is kept; a bad one is scanned again behind its diagnostic (R205). -/
theorem feedAgrees_gotSof (c : Config) (b : Byte) : FeedAgrees c [0x01] b := by
  change feed c .gotSof b = ((decodeChunk c [] [0x01, b]).1, serialOf (decodeChunk c [] [0x01, b]).2)
  cases hlegal : lenLegal c b with
  | true =>
    obtain ⟨h3, -⟩ := lenLegal_iff.mp hlegal
    have hpending : pendingOk c [0x01, b] = true := pendingOk_sof_len.mpr ⟨hlegal, Nat.zero_lt_of_lt h3⟩
    rw [feed_gotSof_legal hlegal, decodeChunk_of_pendingOk hpending]
    rfl
  | false =>
    have hbad : assemble c [0x01, b] 0 = .badLength b := by
      rw [assemble_sof_len, if_pos (lenLegal_eq_false_iff.mp hlegal)]
    have hunt : feedHunt b = ((decodeChunk c [] [b]).1, serialOf (decodeChunk c [] [b]).2) := feedAgrees_hunt c b
    rw [feed_gotSof_illegal hlegal, hunt, decodeChunk_cons_sof (congrArg _ hbad)]
    rfl

/-- A body byte is kept until the body is complete (R123, R124). -/
theorem feedAgrees_body {c : Config} {len : Byte} {q : Bytes} (b : Byte) (hlegal : lenLegal c len = true)
    (hshort : q.length < len.toNat) : FeedAgrees c (0x01 :: len :: q) b := by
  change feed c (.body len q) b =
    ((decodeChunk c [] (0x01 :: len :: (q ++ [b]))).1, serialOf (decodeChunk c [] (0x01 :: len :: (q ++ [b]))).2)
  have hlength : (q ++ [b]).length = q.length + 1 := List.length_append
  rcases Nat.lt_or_eq_of_le hshort with hmore | hcomplete
  · have hpending : pendingOk c (0x01 :: len :: (q ++ [b])) = true := pendingOk_sof_len.mpr ⟨hlegal, by omega⟩
    rw [feed_body_short c b hmore, decodeChunk_of_pendingOk hpending]
    rfl
  · rw [feed_body_complete b hlegal hcomplete, decodeChunk_complete_frame hlegal (hlength.trans hcomplete)]
    rfl

/-- One byte fed to the state of a legal PB is one chunk of that byte. -/
theorem feedAgrees {c : Config} {pb : Bytes} (h : pendingOk c pb = true) (b : Byte) : FeedAgrees c pb b := by
  rcases pendingOk_cases h with rfl | rfl | ⟨len, q, rfl, hlegal, hshort⟩
  · exact feedAgrees_hunt c b
  · exact feedAgrees_gotSof c b
  · exact feedAgrees_body b hlegal hshort

/-- The bytes of a chunk fed one by one are the invocations of its one-byte chunks. -/
theorem feedAll_serialOf {c : Config} {pb : Bytes} (h : pendingOk c pb = true) (chunk : Bytes) :
    feedAll c (serialOf pb) chunk = ((decodeChunk c pb chunk).1, serialOf (decodeChunk c pb chunk).2) := by
  induction chunk generalizing pb with
  | nil => rw [decodeChunk_eq_append, List.append_nil, decodeChunk_of_pendingOk h]; rfl
  | cons b rest ih =>
    have hfeed : feed c (serialOf pb) b = ((decodeChunk c pb [b]).1, serialOf (decodeChunk c pb [b]).2) :=
      feedAgrees h b
    have hnext : pendingOk c (decodeChunk c pb [b]).2 = true := pendingOk_decodeChunk c (pb ++ [b])
    have hcut : decodeChunk c pb (b :: rest) = _ :=
      (congrArg _ (List.append_cons pb b rest)).trans (decodeChunk_cut c (pb ++ [b]) rest)
    rw [hcut, feedAll, hfeed, ih hnext]
    rfl

/-! ### The invariant -/

theorem State.ok_iff_of_invocation {s : State} {v : Invocation} (h : s.inv = some v) :
    s.ok = true ↔ s.cfg.ok = true ∧ pendingOk s.cfg s.pb = true ∧ v.ok s.cfg s.pb = true := by
  simp [State.ok, h, and_assoc]

theorem Invocation.ok_iff {c : Config} {pb : Bytes} {v : Invocation} :
    v.ok c pb = true ↔ pb <+: v.w ∧ v.cur ≤ v.w.length ∧ v.frameOk c = true := by
  simp [Invocation.ok, and_assoc]

theorem Invocation.frameOk_of_no_frame {c : Config} {v : Invocation} (h : v.frame = none) : v.frameOk c = true := by
  simp [Invocation.frameOk, h]

theorem Invocation.frameOk_iff_of_frame {c : Config} {v : Invocation} {f : DataFrame} (h : v.frame = some f) :
    v.frameOk c = true ↔ readByte v.w v.cur = some 0x01 ∧ assemble c v.w v.cur = .ok f := by
  simp [Invocation.frameOk, h]

/-- An invocation starts with PB at the head of its working buffer (R24, R201). -/
theorem startInvocation_ok (c : Config) (pb chunk : Bytes) : (startInvocation pb chunk).ok c pb = true :=
  Invocation.ok_iff.mpr ⟨⟨chunk, rfl⟩, Nat.zero_le _, Invocation.frameOk_of_no_frame rfl⟩

/-- The cursor stays in the buffer: what is consumed stands there (R25). -/
theorem Invocation.GoesOn.cur_le {c : Config} {v u : Invocation} (h : v.GoesOn c u) (hframe : v.frameOk c = true) :
    u.cur ≤ v.w.length := by
  have inside {b : Byte} (hb : readByte v.w v.cur = some b) : v.cur + 1 ≤ v.w.length :=
    (readByte_isSome v.w v.cur).mp (by rw [hb]; rfl)
  cases h with
  | control k hf hb => exact inside hb
  | noise hf hb => exact inside hb
  | badLength len hf hb => exact inside hb
  | checksumBad len d k hf hb hm ha =>
    obtain ⟨-, -, hw, -⟩ := assemble_checksumBad ha
    exact (Nat.add_assoc _ _ _).symm.trans_le hw
  | accepted f hf hb => exact Nat.le_of_succ_le (inside hb)
  | decoded f hf =>
    obtain ⟨-, ha⟩ := (frameOk_iff_of_frame hf).mp hframe
    obtain ⟨-, -, hw, -⟩ := assemble_ok ha
    exact (Nat.add_assoc _ _ _).symm.trans_le hw

/-- A frame comes into hand only from the SOF at the cursor (R126). -/
theorem Invocation.GoesOn.frameOk {c : Config} {v u : Invocation} (h : v.GoesOn c u) : u.frameOk c = true := by
  cases h with
  | control k hf => exact frameOk_of_no_frame hf
  | noise hf => exact frameOk_of_no_frame hf
  | badLength len hf => exact frameOk_of_no_frame hf
  | checksumBad len d k hf => exact frameOk_of_no_frame hf
  | accepted f hf hb hm ha =>
    obtain rfl := markerOf_eq_sof.mp hm
    exact (frameOk_iff_of_frame rfl).mpr ⟨hb, ha⟩
  | decoded f hf => exact frameOk_of_no_frame rfl

/-- A step that goes on keeps the invariant of the invocation. -/
theorem Invocation.GoesOn.ok {c : Config} {pb : Bytes} {v u : Invocation} (h : v.GoesOn c u)
    (hok : v.ok c pb = true) : u.ok c pb = true := by
  obtain ⟨hstarts, -, hframe⟩ := ok_iff.mp hok
  obtain ⟨hw, -, -⟩ := h.frame_rule
  exact ok_iff.mpr ⟨hw ▸ hstarts, hw ▸ h.cur_le hframe, h.frameOk⟩

/-- The assembler sees the bytes from the SOF on alone. -/
theorem assemble_drop (c : Config) {w : Bytes} {i : Nat} (hi : i ≤ w.length) :
    assemble c (w.drop i) 0 = assemble c w i := by
  have h := assemble_append_right c (w.take i) (w.drop i) 0
  rw [List.take_append_drop, List.length_take_of_le hi] at h
  exact h.symm

/-- The PB an invocation ends with is legal (R211). -/
theorem Invocation.Ends.pendingOk {c : Config} {v : Invocation} {pb : Bytes} (h : v.Ends c pb) :
    pendingOk c pb = true := by
  cases h with
  | bufferEnd => rfl
  | incomplete hf hb hm ha =>
    obtain rfl := markerOf_eq_sof.mp hm
    have hin : v.cur < v.w.length := (readByte_isSome v.w v.cur).mp (by rw [hb]; rfl)
    rw [drop_of_readByte hb, pendingOk_cons_sof_iff, ← drop_of_readByte hb, assemble_drop c hin.le, ha]

/-- Taking the caller's next call keeps the invariant (R201, R270). -/
theorem stepIdle_ok {s t : State} (hok : s.ok = true) (hv : s.inv = none) (h : stepIdle s = .next t) :
    t.ok = true := by
  obtain ⟨hcfg, hpb⟩ := (State.ok_iff_of_no_invocation hv).mp hok
  rcases stepIdle_cases hv with ⟨-, hs⟩ | ⟨chunk, rest, -, hs⟩ | ⟨rest, -, hs⟩ <;> cases hs.symm.trans h
  · exact hok
  · exact (State.ok_iff_of_invocation rfl).mpr ⟨hcfg, hpb, startInvocation_ok s.cfg s.pb chunk⟩
  · exact (State.ok_iff_of_no_invocation (s := { s with calls := rest, pb := [] }) hv).mpr ⟨hcfg, rfl⟩

/-! ### What an item stands for (R217) -/

theorem payloadItem_ne_ctl (f : DataFrame) (r : PayloadResult) (k : CtlKind) : payloadItem f r ≠ .ctl k := by
  cases r <;> simp [payloadItem, diagItem]

/-- A message is appended only by decoding the frame in hand. -/
theorem Invocation.GoesOn.frame_of_msg {c : Config} {v u : Invocation} {m : DecodedMessage} (h : v.GoesOn c u)
    (hout : u.out = v.out ++ [.msg m]) :
    ∃ f, v.frame = some f ∧ u.cur = v.cur + (2 + f.declaredLength.toNat) := by
  cases h with
  | control k => simp at hout
  | noise => simp at hout
  | badLength len => simp [diagItem] at hout
  | checksumBad len d k => simp [diagItem] at hout
  | accepted f => simp at hout
  | decoded f hf => exact ⟨f, hf, rfl⟩

/-- A control item is appended only for its marker at the cursor. -/
theorem Invocation.GoesOn.marker_of_ctl {c : Config} {v u : Invocation} {k : CtlKind} (h : v.GoesOn c u)
    (hout : u.out = v.out ++ [.ctl k]) :
    ∃ b, readByte v.w v.cur = some b ∧ u.cur = v.cur + 1 ∧ markerOf b = some k.marker := by
  cases h with
  | control k' hf hb hm =>
    obtain rfl : k' = k := by simpa using hout
    exact ⟨_, hb, rfl, hm⟩
  | noise => simp at hout
  | badLength len => simp [diagItem] at hout
  | checksumBad len d k => simp [diagItem] at hout
  | accepted f => simp at hout
  | decoded f => simp [payloadItem_ne_ctl] at hout

theorem CtlKind.marker_byte {k : CtlKind} {b : Byte} (h : markerOf b = some k.marker) :
    (k = .ack ∧ b = 0x06) ∨ (k = .nak ∧ b = 0x15) ∨ (k = .can ∧ b = 0x18) := by
  cases k with
  | ack => exact .inl ⟨rfl, markerOf_eq_ack.mp h⟩
  | nak => exact .inr (.inl ⟨rfl, markerOf_eq_nak.mp h⟩)
  | can => exact .inr (.inr ⟨rfl, markerOf_eq_can.mp h⟩)

end Sys2Proof.Machine

namespace Sys2Proof

open Machine

/-- Settles O46: by what a step can do between invocations, and by the ways it goes on with one or ends it. -/
theorem stepKeepsTheInvariant : Obligations.StepKeepsTheInvariant := by
  intro s t hok hstep
  have hcfg := cfg_ok_of_step_next hstep
  cases hv : s.inv with
  | none => exact stepIdle_ok hok hv ((step_of_no_invocation hcfg hv).symm.trans hstep)
  | some v =>
    obtain ⟨-, hpb, hinv⟩ := (State.ok_iff_of_invocation hv).mp hok
    rcases step_invocation_cases hcfg hv with ⟨u, hu, h⟩ | ⟨pb, hends, h⟩ <;> cases h.symm.trans hstep
    · exact (State.ok_iff_of_invocation rfl).mpr ⟨hcfg, hpb, hu.ok hinv⟩
    · exact (State.ok_iff_of_no_invocation rfl).mpr ⟨hcfg, hends.pendingOk⟩

/-- Settles O49: the run from the call to the end of its invocation leaves the state `answered` by the decode. -/
theorem invocationRefinesDecode : Obligations.InvocationRefinesDecode := by
  intro s chunk rest hok hv hc
  obtain ⟨k, hk, hrun⟩ := runSteps_decode hok hv hc
  refine ⟨k, hk, hrun.trans ?_⟩
  rw [State.answered, hv]

/-- Settles O52: the PB left is legal and the end of the working buffer, so it begins at the SOF of an incomplete
frame. -/
theorem pendingBufferShape : Obligations.PendingBufferShape := by
  refine ⟨fun c pb chunk => ?invocation, fun s t h => ?reset⟩
  case invocation =>
    have hok := pendingOk_decodeChunk c (pb ++ chunk)
    obtain ⟨before, hsplit⟩ := decodeChunk_pb_suffix c (pb ++ chunk)
    rw [decodeChunk_eq_append]
    refine ⟨?fromSof, ?shape, length_le_retainMax hok⟩
    case fromSof =>
      rcases pendingOk_eq_nil_or_incomplete hok with hnil | ⟨w, hw, hincomplete⟩
      · exact .inl hnil
      · refine .inr ⟨before.length, ?_⟩
        rw [hw] at hsplit ⊢
        rw [← hsplit]
        exact ⟨readByte_between before 0x01 w, (assemble_append_right c before _ 0).trans hincomplete,
          List.drop_left.symm⟩
    case shape =>
      rcases pendingOk_cases hok with hnil | hsof | ⟨len, q, hq, hlegal, hshort⟩
      · exact .inl hnil
      · exact .inr (.inl hsof)
      · obtain ⟨h3, hmax⟩ := lenLegal_iff.mp hlegal
        exact .inr (.inr ⟨len, q, hq, h3, hmax, hshort⟩)
  case reset =>
    cases hv : s.inv <;> rw [State.resetSession, hv] at h <;> cases h
    rfl

/-- Settles O53: an empty PB is legal, and a session from a legal PB is one invocation on the joined chunks. -/
theorem fragmentationInvariance : Obligations.FragmentationInvariance := fun _ =>
  decodeChunks_eq_decodeChunk_flatten rfl

/-- Settles O54, by induction on the frames: noise is passed over, and a whole frame leaves nothing pending, so what
stands behind it is decoded alone. -/
theorem noiseInvariance : Obligations.NoiseInvariance := by
  intro c parts last hparts hlast
  induction parts with
  | nil => simpa using decodeChunk_noise_append c hlast []
  | cons p parts ih =>
    obtain ⟨⟨hnoise, hframe⟩, hrest⟩ := List.forall_mem_cons.mp hparts
    have hsettled := decodeChunk_wholeFrame hframe
    simp only [List.flatMap_cons, List.append_assoc]
    rw [decodeChunk_noise_append c hnoise, decodeChunk_append hsettled, decodeChunk_append hsettled, ih hrest]

/-- Settles O55: the rows of the table as equations of `feed`, and the agreement byte by byte, each byte being a chunk
of its own. -/
theorem serialFormAgrees : Obligations.SerialFormAgrees := by
  refine ⟨fun c => ⟨rfl, rfl, rfl, rfl, fun b hb => feedHunt_noise (markerOf_eq_none.mpr hb)⟩,
    fun c b => ⟨fun hbad => feed_gotSof_illegal (lenLegal_eq_false_iff.mpr hbad),
      fun h3 hmax => feed_gotSof_legal (lenLegal_iff.mpr ⟨h3, hmax⟩)⟩,
    fun c len b q => ⟨feed_body_short c b,
      fun h3 hmax => feed_body_complete b (lenLegal_iff.mpr ⟨h3, hmax⟩)⟩,
    fun c pb chunk h => ⟨toPending_serialOf h, ?items, ?pending⟩⟩
  case items => rw [feedAll_serialOf h]
  case pending =>
    rw [feedAll_serialOf h]
    exact toPending_serialOf (pendingOk_decodeChunk c (pb ++ chunk))

/-- Settles O48: a message comes from the frame in hand, which the invariant ties to the cursor, and a control item
from its marker. -/
theorem itemsAreBackedByBytes : Obligations.ItemsAreBackedByBytes := by
  intro s t v u hok hv hstep hu
  obtain ⟨hcfg, -, hinv⟩ := (State.ok_iff_of_invocation hv).mp hok
  obtain ⟨-, -, hframe⟩ := Invocation.ok_iff.mp hinv
  rcases step_invocation_cases hcfg hv with ⟨u', hgoes, h⟩ | ⟨pb, -, h⟩ <;> cases h.symm.trans hstep <;> cases hu
  refine ⟨fun m hout => ?msg, fun k hout => ?ctl⟩
  case msg =>
    obtain ⟨f, hf, hcur⟩ := hgoes.frame_of_msg hout
    obtain ⟨hsof, ha⟩ := (Invocation.frameOk_iff_of_frame hf).mp hframe
    obtain ⟨hlen, -, -, -, -, -, hcks⟩ := assemble_ok ha
    exact ⟨_, _, hsof, hlen, hcks, validate_iff.mpr rfl, hcur.trans (Nat.add_assoc _ _ _).symm⟩
  case ctl =>
    obtain ⟨b, hb, hcur, hm⟩ := hgoes.marker_of_ctl hout
    exact ⟨b, hb, hcur, CtlKind.marker_byte hm⟩

/-- Settles O51: both bounds exceed the bytes of the buffer. -/
theorem loopPassesSuffice : Obligations.LoopPassesSuffice := fun _ _ _ =>
  decodeLoop_passes_irrelevant (by omega) (by omega) []

/-- Settles O56: the working buffer is PB itself, which waits for more. -/
theorem emptyChunkChangesNothing : Obligations.EmptyChunkChangesNothing := by
  intro c pb h
  rw [decodeChunk_eq_append, List.append_nil, decodeChunk_of_pendingOk h]

/-- Settles O35: the step runs the next instruction, read from the cursor or from the key of the frame in hand. -/
theorem stepRunsTheDecodedInstruction : Obligations.StepRunsTheDecodedInstruction := by
  refine ⟨fun s v i rest hok hv h => step_of_nextInstr hok hv (nextInstr_of_decode h),
    fun s v before behind b hok hv hf hw hcur => step_of_nextInstr hok hv ?atCursor,
    fun s v f hok hv hf => step_of_nextInstr hok hv (nextInstr_key s.cfg hf)⟩
  case atCursor =>
    rw [nextInstr_scan s.cfg hf, hw, hcur, readByte_between, Option.map_some]

/-- Settles O36: at the end of the buffer there is no byte to decode. -/
theorem stepEndsInvocationAtBufferEnd : Obligations.StepEndsInvocationAtBufferEnd := by
  intro s v hok hv hf hend
  refine step_of_no_nextInstr hok hv ?_
  rw [nextInstr_scan s.cfg hf, (readByte_eq_none _ _).mpr hend, Option.map_none]

/-- Settles O37: by the caller's next call, if there is one. -/
theorem stepTakesTheNextCall : Obligations.StepTakesTheNextCall := by
  intro s hok hv
  have hidle := stepIdle_cases hv
  rw [← step_of_no_invocation hok hv] at hidle
  exact ⟨fun hc => by simpa [hc] using hidle, fun chunk rest hc => step_decode_call hok hv hc,
    fun rest hc => by simpa [hc] using hidle⟩

end Sys2Proof

/-! The exceptional conditions (spec/60_exceptions.md): no byte sequence stops the block (R240), every diagnostic carries
the code of its info (R241), and where the scan resumes behind a frame that is discarded (R242, R243). -/

namespace Sys2Proof.Machine

/-! ### No step stops the block (R240) -/

/-- The caller's next call is always taken, and with no call left nothing is done (R252). -/
theorem stepIdle_answers_next {s : State} (hv : s.inv = none) : ∃ t, stepIdle s = .next t := by
  rcases stepIdle_cases hv with ⟨-, h⟩ | ⟨_, _, -, h⟩ | ⟨_, -, h⟩
  · exact ⟨_, h⟩
  · exact ⟨_, h⟩
  · exact ⟨_, h⟩

/-- A step of an invocation goes on with it or ends it, so it answers a next state. -/
theorem step_invocation_answers_next {s : State} {v : Invocation} (hok : s.cfg.ok = true) (hv : s.inv = some v) :
    ∃ t, step s = .next t := by
  rcases step_invocation_cases hok hv with ⟨_, -, h⟩ | ⟨_, -, h⟩
  · exact ⟨_, h⟩
  · exact ⟨_, h⟩

/-! ### The codes of the diagnostics (R241) -/

theorem toNat_countByte {k : Nat} (h : k < 256) : (countByte k).toNat = k := by
  rw [countByte, if_pos h, BitVec.toNat_ofNat, Nat.mod_eq_of_lt h]

@[simp] theorem codeOk_ctl (k : CtlKind) : (Item.ctl k).codeOk = true := rfl

@[simp] theorem codeOk_msg (m : DecodedMessage) : (Item.msg m).codeOk = true := rfl

/-- The one operation that raises a diagnostic sets its code beside its info. -/
@[simp] theorem codeOk_diagItem (d : DiagInfo) : (diagItem d).codeOk = true := beq_self_eq_true d.code

@[simp] theorem codeOk_payloadItem (f : DataFrame) (r : PayloadResult) : (payloadItem f r).codeOk = true := by
  cases r with
  | decoded m => exact codeOk_msg m
  | malformed nMin => exact codeOk_diagItem _

/-- During an invocation the diagnostics are those already returned and those of its output. -/
theorem State.codesOk_of_invocation {s : State} {v : Invocation} (h : s.inv = some v) :
    s.codesOk = (s.returned.all (fun items => items.all Item.codeOk) && v.out.all Item.codeOk) := by
  simp [State.codesOk, h]

/-- Every item a step appends carries the code of its info. -/
theorem Invocation.GoesOn.out_codesOk {c : Config} {v u : Invocation} (h : v.GoesOn c u)
    (hout : v.out.all Item.codeOk = true) : u.out.all Item.codeOk = true := by
  have appended {x : Item} (hx : x.codeOk = true) : (v.out ++ [x]).all Item.codeOk = true := by
    simp only [List.all_append, hout, List.all_cons, hx, List.all_nil, Bool.and_self]
  cases h with
  | control k => exact appended (codeOk_ctl k)
  | noise => exact hout
  | badLength len => exact appended (codeOk_diagItem _)
  | checksumBad len declared computed => exact appended (codeOk_diagItem _)
  | accepted f => exact hout
  | decoded f => exact appended (codeOk_payloadItem f _)

/-- Going on with an invocation keeps the codes of what was returned and of its output. -/
theorem State.codesOk_setInv {s : State} {v u : Invocation} (hv : s.inv = some v) (hu : v.GoesOn s.cfg u)
    (hs : s.codesOk = true) : (s.setInv u).codesOk = true := by
  rw [codesOk_of_invocation hv, Bool.and_eq_true] at hs
  obtain ⟨hreturned, hout⟩ := hs
  rw [codesOk_of_invocation (setInv_inv s u), setInv_returned, Bool.and_eq_true]
  exact ⟨hreturned, hu.out_codesOk hout⟩

/-- The end of an invocation returns its output and emits nothing more (R207). -/
theorem State.codesOk_finish {s : State} {v : Invocation} (hv : s.inv = some v) (pb : Bytes)
    (hs : s.codesOk = true) : (s.finish v pb).codesOk = true := by
  rw [codesOk_of_invocation hv] at hs
  rw [codesOk_of_no_invocation (finish_inv s v pb), finish_returned, List.all_append, List.all_cons, List.all_nil,
    Bool.and_true]
  exact hs

/-- Between invocations no item is emitted: a call starts with an empty output, and reset emits none (R201, R270). -/
theorem State.codesOk_stepIdle {s t : State} (hv : s.inv = none) (hs : s.codesOk = true)
    (h : stepIdle s = .next t) : t.codesOk = true := by
  have hreturned := hs
  rw [codesOk_of_no_invocation hv] at hreturned
  rcases stepIdle_cases hv with ⟨-, hstep⟩ | ⟨chunk, rest, -, hstep⟩ | ⟨rest, -, hstep⟩ <;> cases hstep.symm.trans h
  · exact hs
  · rw [codesOk_of_invocation (setInv_inv _ _), setInv_returned, startInvocation_out, List.all_nil, Bool.and_true]
    exact hreturned
  · exact (codesOk_of_no_invocation (s := { s with calls := rest, pb := [] }) hv).trans hreturned

/-! ### Where the scan resumes behind a discarded frame (R242, R243) -/

/-- The `2 + L` bytes of a complete frame end at its checksum (R124). -/
theorem drop_complete_frame {len : Byte} {p : Bytes} (hp : p.length + 3 = len.toNat) (b d f cks : Byte)
    (rest : Bytes) : (b :: len :: d :: f :: (p ++ cks :: rest)).drop (2 + len.toNat) = rest := by
  rw [← hp, Nat.add_comm]
  simp

/-- A complete frame of legal length with a bad checksum gives its diagnostic and is consumed whole (R125, R242). -/
theorem decodeChunk_bad_checksum {c : Config} {len d f cks : Byte} {p : Bytes} (h3 : 3 ≤ len.toNat)
    (hmax : len.toNat ≤ c.maxLen) (hp : p.length + 3 = len.toNat) (hcks : compute (len :: d :: f :: p) ≠ cks)
    (rest : Bytes) :
    decodeChunk c [] (0x01 :: len :: d :: f :: (p ++ cks :: rest)) =
      (diagItem (.checksumMismatch len cks (compute (len :: d :: f :: p))) :: (decodeChunk c [] rest).1,
        (decodeChunk c [] rest).2) := by
  have hbad : assemble c (0x01 :: len :: d :: f :: (p ++ cks :: rest)) 0 =
      .checksumBad len cks (compute (len :: d :: f :: p)) := by
    obtain ⟨-, -, hcomplete⟩ := assemblerOutcomes c []
    exact (hcomplete len d f cks p rest h3 hmax hp).trans (if_neg hcks)
  rw [decodeChunk_cons_sof (congrArg _ hbad), drop_complete_frame hp]

/-- A SOF with an illegal length gives its diagnostic and is consumed alone (R122, R243). -/
theorem decodeChunk_bad_length {c : Config} {len : Byte} (hbad : len.toNat < 3 ∨ c.maxLen < len.toNat) (rest : Bytes) :
    decodeChunk c [] (0x01 :: len :: rest) =
      (diagItem (.badLength len) :: (decodeChunk c [] (len :: rest)).1, (decodeChunk c [] (len :: rest)).2) := by
  have hlength : assemble c (0x01 :: len :: rest) 0 = .badLength len := by
    rw [assemble_sof_len, if_pos hbad]
  exact decodeChunk_cons_sof (congrArg _ hlength)

end Sys2Proof.Machine

namespace Sys2Proof

open Machine

/-- Settles O38: between invocations the step takes the caller's next call, and during one it goes on with it or ends
it. -/
theorem stepNeverStops : Obligations.StepNeverStops := by
  intro s hok
  cases hv : s.inv with
  | none => rw [step_of_no_invocation hok hv]; exact stepIdle_answers_next hv
  | some v => exact step_invocation_answers_next hok hv

/-- Settles O47: a step that goes on with an invocation appends an item with its code or none, and one that ends it, or
stands between two, emits nothing. -/
theorem diagnosticCodes : Obligations.DiagnosticCodes := by
  refine ⟨fun _ _ _ => rfl, fun _ => rfl, fun _ _ _ _ => rfl, fun s t hs hstep => ?everyStep⟩
  case everyStep =>
    have hcfg := cfg_ok_of_step_next hstep
    cases hv : s.inv with
    | none => exact State.codesOk_stepIdle hv hs ((step_of_no_invocation hcfg hv).symm.trans hstep)
    | some v =>
      rcases step_invocation_cases hcfg hv with ⟨u, hu, h⟩ | ⟨pb, -, h⟩ <;> cases h.symm.trans hstep
      · exact State.codesOk_setInv hv hu hs
      · exact State.codesOk_finish hv pb hs

/-- Settles O58: the bytes before the frame are decoded alone, and the frame is consumed whole with its diagnostic. -/
theorem checksumMismatchResumesAfterFrame : Obligations.ChecksumMismatchResumesAfterFrame := by
  intro c len d f cks p before rest hbefore h3 hmax hp hcks
  rw [decodeChunk_append hbefore, decodeChunk_bad_checksum h3 hmax hp hcks]
  rfl

/-- Settles O59: the bytes before the SOF are decoded alone, and the SOF alone is consumed with its diagnostic. -/
theorem badLengthResumesAtLength : Obligations.BadLengthResumesAtLength := by
  intro c len before rest hbefore hbad
  rw [decodeChunk_append hbefore, decodeChunk_bad_length hbad]
  rfl

/-- Settles O15: below 256 the byte is the count itself. -/
theorem countByteIsTheCount : Obligations.CountByteIsTheCount := fun _ => toNat_countByte

end Sys2Proof

/-! Reset and hazards (spec/70_reset_and_hazards.md): the calls of the environment between and during invocations (R270,
R274), the fixed configuration (R273), and the partial frame that waits (R275). -/

namespace Sys2Proof.Machine

/-! ### The operations of the environment -/

/-- An invocation in progress shuts out another one (R274). -/
theorem invoke_of_invocation {s : State} {v : Invocation} (hv : s.inv = some v) (chunk : Bytes) :
    s.invoke chunk = .refused .overlappingCall := by
  rw [State.invoke, hv]

/-- An invocation in progress shuts out reset (R274). -/
theorem resetSession_of_invocation {s : State} {v : Invocation} (hv : s.inv = some v) :
    s.resetSession = .refused .overlappingCall := by
  rw [State.resetSession, hv]

/-- Between invocations reset writes PB alone (R270). -/
theorem resetSession_of_no_invocation {s : State} (hv : s.inv = none) :
    s.resetSession = .next { s with pb := [] } := by
  rw [State.resetSession, hv]

/-- A booted machine keeps its configuration (R273). -/
theorem configure_of_ne {s : State} {c : Config} (h : c ≠ s.cfg) : s.configure c = .refused .configurationFixed :=
  if_neg h

/-! ### The configuration along a step -/

/-- No call of the environment writes the configuration (R273). -/
theorem stepIdle_cfg {s t : State} (hv : s.inv = none) (h : stepIdle s = .next t) : t.cfg = s.cfg := by
  rcases stepIdle_cases hv with ⟨-, hs⟩ | ⟨chunk, rest, -, hs⟩ | ⟨rest, -, hs⟩ <;> cases hs.symm.trans h
  · rfl
  · exact State.setInv_cfg _ _
  · rfl

/-- A step of an invocation writes the invocation, PB and what was returned, never the configuration (R273). -/
theorem step_invocation_cfg {s t : State} {v : Invocation} (hv : s.inv = some v) (h : step s = .next t) :
    t.cfg = s.cfg := by
  rcases step_invocation_cases (cfg_ok_of_step_next h) hv with ⟨u, -, hs⟩ | ⟨pb, -, hs⟩ <;> cases hs.symm.trans h
  · exact State.setInv_cfg s u
  · exact State.finish_cfg s v pb

end Sys2Proof.Machine

namespace Sys2Proof

open Machine

/-- Settles O40: between invocations the step takes a call, and during one it goes on with it or ends it; none of these
writes the configuration. -/
theorem configurationIsFixed : Obligations.ConfigurationIsFixed := by
  refine ⟨fun s t hstep => ?everyStep, fun _ _ => configure_of_ne⟩
  case everyStep =>
    cases hv : s.inv with
    | none => exact stepIdle_cfg hv ((step_of_no_invocation (cfg_ok_of_step_next hstep) hv).symm.trans hstep)
    | some v => exact step_invocation_cfg hv hstep

/-- Settles O57: the kept frame with the chunk behind it still lacks bytes, so it is itself a legal PB, which waits. -/
theorem keptFrameWaits : Obligations.KeptFrameWaits := by
  intro c len q chunk h3 hmax hshort
  have hpending : pendingOk c (0x01 :: len :: (q ++ chunk)) = true :=
    pendingOk_sof_len.mpr ⟨lenLegal_iff.mpr ⟨h3, hmax⟩, by rwa [List.length_append]⟩
  exact decodeChunk_of_pendingOk hpending

/-- Settles O42: both calls find the invocation in progress. -/
theorem overlappingCallIsRefused : Obligations.OverlappingCallIsRefused := fun _ _ hv =>
  ⟨invoke_of_invocation hv, resetSession_of_invocation hv⟩

/-- Settles O43: reset writes PB alone, and an empty PB is the mode Idle (R22). -/
theorem resetLosesThePartialFrame : Obligations.ResetLosesThePartialFrame := fun _ =>
  ⟨fun hv => ⟨_, resetSession_of_no_invocation hv, rfl, rfl, State.mode_eq_idle_iff.mpr rfl⟩,
    fun _ => resetSession_of_invocation⟩

end Sys2Proof

/-! The meaning of SOF (R117, R205): one equation for each outcome of the assembler, and the step that decodes a frame
in hand. -/

namespace Sys2Proof.Machine

/-! ### SOF, by the outcome of the assembler -/

section SofAtCursor

variable {s : State} {v : Invocation}

/-- An incomplete frame is kept from its SOF on, and the invocation ends (R205, R207). -/
theorem execSof_incomplete (hv : s.inv = some v) (ha : assemble s.cfg v.w v.cur = .incomplete) :
    execSof s = .next (s.finish v (v.w.drop v.cur)) := by
  rw [execSof, withInvocation_some hv, ha]

/-- A bad length gives its diagnostic, and the SOF alone is consumed (R122, R205). -/
theorem execSof_badLength {len : Byte} (hv : s.inv = some v) (ha : assemble s.cfg v.w v.cur = .badLength len) :
    execSof s = .next (s.setInv (v.after (diagItem (.badLength len)) 1)) := by
  rw [execSof, withInvocation_some hv, ha]
  rfl

/-- A bad checksum gives its diagnostic, and the whole frame is consumed (R125, R205). -/
theorem execSof_checksumBad {len declared computed : Byte} (hv : s.inv = some v)
    (ha : assemble s.cfg v.w v.cur = .checksumBad len declared computed) :
    execSof s =
      .next (s.setInv (v.after (diagItem (.checksumMismatch len declared computed)) (2 + len.toNat))) := by
  rw [execSof, withInvocation_some hv, ha]
  rfl

/-- A valid frame is handed on with nothing consumed (R126). -/
theorem execSof_ok {f : DataFrame} (hv : s.inv = some v) (ha : assemble s.cfg v.w v.cur = .ok f) :
    execSof s = .next (s.setInv (v.hand f)) := by
  rw [execSof, withInvocation_some hv, ha]

end SofAtCursor

/-! ### The step with a frame in hand -/

/-- The step decodes the frame in hand by the rule of its key (R140, R205). -/
theorem step_of_frame_in_hand {s : State} {v : Invocation} {f : DataFrame} (hok : s.cfg.ok = true)
    (hv : s.inv = some v) (hf : v.frame = some f) :
    step s = .next (s.afterFrame v f (payloadItem f (decodePayload s.cfg f))) :=
  (step_of_nextInstr hok hv (nextInstr_key s.cfg hf)).trans (exec_decodeKey hv hf)

end Sys2Proof.Machine

namespace Sys2Proof

open Machine

/-- Settles O18: `assemblerOutcomes` gives the outcome for each shape of the bytes from the SOF on, SOF acts on it, and
an accepted frame is in hand for the next step. -/
theorem sofActsOnOutcome : Obligations.SofActsOnOutcome := by
  intro s v before hv hcur
  obtain ⟨halone, hlen, hcomplete⟩ := assemblerOutcomes s.cfg before
  have fromSof {w : Bytes} (hw : v.w = before ++ w) : v.w.drop v.cur = w := by
    rw [hw, hcur, List.drop_left]
  have judged {w : Bytes} {a : Assembly} (hw : v.w = before ++ w)
      (ha : assemble s.cfg (before ++ w) before.length = a) : assemble s.cfg v.w v.cur = a := by
    rw [hw, hcur, ha]
  refine ⟨fun hw => ?alone, fun len body hw => ⟨fun hbad => ?badLength, fun h3 hmax hshort => ?short⟩,
    fun len d f cks p behind hw h3 hmax hp => ⟨fun hne => ?checksumBad, fun heq => ⟨?handed, fun hok => ?decoded⟩⟩⟩
  case alone =>
    exact (execSof_incomplete hv (judged hw halone)).trans (by rw [fromSof hw]; rfl)
  case badLength =>
    obtain ⟨houtcome, -⟩ := hlen len body
    exact execSof_badLength hv (judged hw (houtcome hbad))
  case short =>
    obtain ⟨-, houtcome⟩ := hlen len body
    exact (execSof_incomplete hv (judged hw (houtcome h3 hmax hshort))).trans (by rw [fromSof hw]; rfl)
  case checksumBad =>
    exact execSof_checksumBad hv (judged hw ((hcomplete len d f cks p behind h3 hmax hp).trans (if_neg hne)))
  case handed =>
    exact execSof_ok hv (judged hw ((hcomplete len d f cks p behind h3 hmax hp).trans (if_pos heq)))
  case decoded =>
    refine (step_of_frame_in_hand (s := s.setInv (v.hand ⟨d, f, p, len⟩)) hok rfl rfl).trans ?_
    rw [State.setInv_cfg]
    cases decodePayload s.cfg ⟨d, f, p, len⟩ <;> rfl

end Sys2Proof
